-- ==== Sys2Proof/Word.lean ====
section
/-! DEFINITION. The words MSPE moves: bytes of the link and of the payload buffer, the 32-bit host data word, the 37-bit
host transaction (00_scope R8, 30_encoding R70). -/

namespace Sys2Proof

/-- A byte of the link or of the payload buffer (00_scope R10: only width 1 exists). -/
abbrev Byte := BitVec 8

/-- The host data word (00_scope R8). -/
abbrev Word := BitVec 32

/-- The checksum engine's 16-bit values (10_state R21). -/
abbrev Crc := BitVec 16

/-- A host transaction, `rw` in bit 36, `sel` in bits 35:32, `data` in bits 31:0 (30_encoding R70). -/
abbrev Txn := BitVec 37

end Sys2Proof
end

