-- ==== Sys2Proof/Config.lean ====
section
/-! DEFINITION. What is fixed for the machine: the literals of the spec, each named once (93_implementation_defined G5), the
alphabet of link events, and the free values: constants without a body, of which nothing can be proved. -/

namespace Sys2Proof

/-- One call of a link primitive, with its answer (20_memory R66). -/
inductive LinkEvent
  /-- `LinkWrite(b)`. -/
  | tx (b : Byte)
  /-- `LinkFlush()`. -/
  | flush
  /-- `LinkRead1()` with its answer: a byte, or `none` when the read window expired. -/
  | rx (a : Option Byte)
  deriving DecidableEq, Repr

namespace Config

/-! ### Checksum engine and payload buffer (00_scope R8) -/

/-- The CRC polynomial (40_checksum R100, R102). -/
def crcPoly : Crc := 0x1021#16

/-- The default seed, and the seed of every frame (40_checksum R101, 41_frame_codec R122). -/
def crcSeed : Crc := 0xFFFF#16

/-- `PBUF_SIZE`: entries of the payload buffer (00_scope R8, 20_memory R50). -/
def pbufSize : Nat := 256

/-! ### Wire constants (30_encoding R82) -/

/-- `START`, "frame start marker". -/
def wireStart : Byte := 0x55#8
/-- `END`, "end-of-image sentinel". -/
def wireEnd : Byte := 0x5A#8
/-- `ACK`, "generic success acknowledgement". -/
def wireAck : Byte := 0xAA#8
/-- `NACK`, "generic target non-response". -/
def wireNack : Byte := 0xEE#8
/-- `FIN`, "aggregation-phase terminator". -/
def wireFin : Byte := 0xAC#8
/-- `FSL`, "flashing-success sentinel". -/
def wireFsl : Byte := 0xAE#8
/-- `RST`, "software reset trigger (sent directly, no handshake)". -/
def wireRst : Byte := 0x5B#8

/-! ### Command bytes (30_encoding R83) -/

def cmdSelectTarget : Byte := 0x11#8
def cmdCheckTarget : Byte := 0x12#8
def cmdChecksumCheck : Byte := 0x13#8
def cmdReceiveImage : Byte := 0x14#8
def cmdFlashImage : Byte := 0x15#8
def cmdBaudChange : Byte := 0x16#8
def cmdHostBaudChange : Byte := 0x17#8
def cmdResetTarget : Byte := 0x19#8

/-- The target error codes with their descriptions (30_encoding R84); the set of the bytes is `is_terr` (42_exchange R141). -/
def targetErrors : List (Byte × String) :=
  [(0xE1#8, "size=0"), (0xE2#8, "size>256"), (0xE3#8, "segment table full"), (0xE4#8, "image buffer overflow"),
   (0xE5#8, "checksum mismatch"), (0xE6#8, "protocol framing"), (0xE7#8, "target flash failed"),
   (0xE8#8, "bootloader version mismatch"), (0xE9#8, "image not relayed to host"), (0xEA#8, "target unavailable"),
   (0xEE#8, "generic NACK")]

/-- The baud code map, "target-side baud selector, one byte"; its keys are the supported set (30_encoding R85,
44_host_sequences R209). -/
def baudCodes : List (Nat × Byte) :=
  [(9600, 0x60#8), (19200, 0x61#8), (38400, 0x62#8), (57600, 0x63#8), (115200, 0x64#8), (230400, 0x65#8),
   (460800, 0x66#8), (921600, 0x67#8)]

/-- Attempts of the Command Handshake, a constant of the host sequence and not of the block (44_host_sequences R190). -/
def maxAttempts : Nat := 5

/-- `ACKC`, the aggregator's "acknowledgement-constant", and `NACKC` below: the spec's decision D40 (44_host_sequences R198;
assumption 18). -/
def aggAck : Byte := wireAck

/-- `NACKC`, the aggregator's "not-acknowledgement-constant" (44_host_sequences R198, decision D40; assumption 18). -/
def aggNack : Byte := wireNack

/-! ### Free values -/

/-- FREE VALUE (assumption 1). The Transport's answer to a `LinkRead1()` made after the given event history, once the answers
listed in the state are used up: `none` or any byte (20_memory R62, "a function of the event history";
93_implementation_defined U1). -/
opaque linkAnswer : List LinkEvent → Option Byte

/-- FREE VALUE (assumption 12). `BASE`, the base address of the memory-mapped binding, "a platform parameter; no rule depends
on it" (20_memory R57, 30_encoding R79). -/
opaque base : Nat

/-- FREE VALUE (assumption 16). What the host's elapsed-time clock shows when an acknowledged target response is collected,
after the given event history (44_host_sequences R197, R198; 70_reset_and_hazards R279). -/
opaque responseElapsed : List LinkEvent → Nat

/-- FREE VALUE (assumption 16). The wall-clock duration the host measures for a session phase that ends after the given event
history (44_host_sequences R200; 70_reset_and_hazards R279). -/
opaque phaseDuration : List LinkEvent → Nat

/-- FREE VALUE (assumption 39). Whether the host takes a segment's address for an "out-of-range target address" (60_exceptions
R233): neither the range nor which address is meant is given (91_not_in_source N15). -/
opaque segmentOutOfRange : Word → Bool

/-- FREE VALUE (assumption 39). Whether the host takes the address (board, target slot) for an "out-of-range target address"
(60_exceptions R233), the other reading of 91_not_in_source N15. -/
opaque slotOutOfRange : Nat → Nat → Bool

end Config
end Sys2Proof
end

