-- ==== Sys2Proof/Syntax.lean ====
section
/-! DEFINITION. The instructions of MSPE-1, one constructor per row of spec/opcode_table.json (30_encoding R73, R74, R90), and
two records that well-formedness is about: a bus access of the memory-mapped binding and a firmware segment. -/

namespace Sys2Proof

/-- The twelve operations (write transactions) and the five register reads. An operand has exactly the width its operation
uses; the bits of `data` above it are ignored by the block and are no part of the instruction (30_encoding R75, R89). -/
inductive Instr
  /-- `INIT` (43_system R170). -/
  | init
  /-- `CRC.SEED imm16` (40_checksum R103). -/
  | crcSeed (imm16 : BitVec 16)
  /-- `CRC.BYTE imm8` (40_checksum R104). -/
  | crcByte (imm8 : BitVec 8)
  /-- `FRM.ADDR imm32` (41_frame_codec R124). -/
  | frmAddr (imm32 : BitVec 32)
  /-- `FRM.CLR` (41_frame_codec R125). -/
  | frmClr
  /-- `FRM.PUSH imm8` (41_frame_codec R126). -/
  | frmPush (imm8 : BitVec 8)
  /-- `FRM.TX` (41_frame_codec R127). -/
  | frmTx
  /-- `XCH.FRM` (42_exchange R144). -/
  | xchFrm
  /-- `XCH.CMD imm8` (42_exchange R143). -/
  | xchCmd (imm8 : BitVec 8)
  /-- `TX.RAW imm8` (42_exchange R145). -/
  | txRaw (imm8 : BitVec 8)
  /-- `TX.FLUSH` (42_exchange R146). -/
  | txFlush
  /-- `RX.ONE` (42_exchange R147). -/
  | rxOne
  /-- `RD.STATUS` (43_system R171). -/
  | rdStatus
  /-- `RD.CRC` (43_system R172). -/
  | rdCrc
  /-- `RD.ADDR` (43_system R173). -/
  | rdAddr
  /-- `RD.PCNT` (43_system R174). -/
  | rdPcnt
  /-- `RD.XBYTE` (43_system R175). -/
  | rdXbyte
  deriving DecidableEq, Repr

/-- An access a platform presents under the memory-mapped binding (30_encoding R79): a store or a load, its byte address, its
width in bytes and, for a store, its data. -/
structure BusAccess where
  store : Bool
  addr : Nat
  width : Nat
  data : Word
  deriving DecidableEq, Repr

/-- A Segment, "`(start_address: u32, payload: bytes, 1..=256 bytes)`" (41_frame_codec R120). -/
structure Segment where
  addr : Word
  payload : List Byte
  deriving DecidableEq, Repr

end Sys2Proof
end

