-- ==== Sys2Proof/WellFormed.lean ====
section
/-! DEFINITION. Which terms are well formed: instructions, transaction numbers, bus accesses and segments. -/

namespace Sys2Proof

/-- Every instruction term is well formed: an operand's type has exactly the bits its operation reads, and "every value of
`data` is accepted by every assigned operation" (30_encoding R75, R76). One arm per constructor, so that a new instruction
must say what it needs. -/
def Instr.wf : Instr → Bool
  | .init => true
  | .crcSeed _ => true
  | .crcByte _ => true
  | .frmAddr _ => true
  | .frmClr => true
  | .frmPush _ => true
  | .frmTx => true
  | .xchFrm => true
  | .xchCmd _ => true
  | .txRaw _ => true
  | .txFlush => true
  | .rxOne => true
  | .rdStatus => true
  | .rdCrc => true
  | .rdAddr => true
  | .rdPcnt => true
  | .rdXbyte => true

/-- A number is a host transaction when it has 37 bits (30_encoding R70: "There is one length (37 bits)"). -/
def txnInRange (w : Nat) : Bool := w < 2 ^ 37

/-- An offset from `BASE` and an access width the memory-mapped binding defines: an aligned 32-bit access inside the 64-byte
window (20_memory R55, 30_encoding R79). -/
def offsetWf (offset width : Nat) : Bool := width == 4 && offset % 4 == 0 && offset < 0x40

/-- A bus access the binding defines; any other "is outside this spec" and is refused (20_memory R55). -/
def BusAccess.wf (a : BusAccess) : Bool := Config.base ≤ a.addr && offsetWf (a.addr - Config.base) a.width

/-- A segment the host may hand the block: 1 to 256 payload bytes (41_frame_codec R120, 44_host_sequences R210). -/
def Segment.wf (g : Segment) : Bool := 1 ≤ g.payload.length && g.payload.length ≤ Config.pbufSize

end Sys2Proof
end

