-- ==== Sys2Proof/Decode.lean ====
section
/-! DEFINITION. Decoding a host transaction (30_encoding R70 to R78, R89), and after it the encoder, written from the same
tables. -/

namespace Sys2Proof

/-- What a 37-bit transaction is. Decoding is total (30_encoding R89): an assigned operation or register read, or a reserved
selector, rejected by name: a reserved write (30_encoding R76), a reserved read (30_encoding R77). -/
inductive Decoded
  | op (i : Instr)
  | reservedWrite (sel : BitVec 4)
  | reservedRead (sel : BitVec 4)
  deriving DecidableEq, Repr

/-! ### Fields of a transaction (30_encoding R70) and operands (30_encoding R75) -/

/-- `rw`, bit 36: true for a write. -/
def rwOf (t : Txn) : Bool := t.getLsbD 36

/-- `sel`, bits 35:32. -/
def selOf (t : Txn) : BitVec 4 := t.extractLsb' 32 4

/-- `data`, bits 31:0. -/
def dataOf (t : Txn) : Word := t.extractLsb' 0 32

/-- `imm8 = data[7:0]`. -/
def imm8 (data : Word) : BitVec 8 := data.extractLsb' 0 8

/-- `imm16 = data[15:0]`. -/
def imm16 (data : Word) : BitVec 16 := data.extractLsb' 0 16

/-- `imm32 = data[31:0]`. -/
def imm32 (data : Word) : BitVec 32 := data

/-! ### The operation map -/

/-- Write selectors (30_encoding R73). -/
def decodeWrite (sel : BitVec 4) (data : Word) : Decoded :=
  match sel with
  | 0x0#4 => .op .init
  | 0x1#4 => .op (.crcSeed (imm16 data))
  | 0x2#4 => .op (.crcByte (imm8 data))
  | 0x3#4 => .op (.frmAddr (imm32 data))
  | 0x4#4 => .op .frmClr
  | 0x5#4 => .op (.frmPush (imm8 data))
  | 0x6#4 => .op .frmTx
  | 0x7#4 => .op .xchFrm
  | 0x8#4 => .op (.xchCmd (imm8 data))
  | 0x9#4 => .op (.txRaw (imm8 data))
  | 0xA#4 => .op .txFlush
  | 0xB#4 => .op .rxOne
  | _ => .reservedWrite sel

/-- Read selectors (30_encoding R74). -/
def decodeRead (sel : BitVec 4) : Decoded :=
  match sel with
  | 0x0#4 => .op .rdStatus
  | 0x1#4 => .op .rdCrc
  | 0x3#4 => .op .rdAddr
  | 0x4#4 => .op .rdPcnt
  | 0x8#4 => .op .rdXbyte
  | _ => .reservedRead sel

/-- "A decoder looks at `rw`, then at `sel`, and at nothing else to identify the instruction" (30_encoding R70). -/
def decode (t : Txn) : Decoded :=
  if rwOf t then decodeWrite (selOf t) (dataOf t) else decodeRead (selOf t)

/-- The instruction a decoded transaction is, if it is one. -/
def Decoded.instr? : Decoded → Option Instr
  | .op i => some i
  | .reservedWrite _ => none
  | .reservedRead _ => none

/-- The host's entry: the word of an instruction as spec/opcode_table.json numbers its bits. The transaction is one 37-bit
word, so bit `k` of `w` is bit `k` of the transaction; a number with a bit above 36 is no transaction (assumption 27). -/
def decodeTableWord (_nbits w : Nat) : Option Instr :=
  if txnInRange w then (decode (BitVec.ofNat 37 w)).instr? else none

/-! ### The encoder -/

/-- `T = {rw, sel, data}` (30_encoding R70). -/
def packTxn (rw : Bool) (sel : BitVec 4) (data : Word) : Txn := BitVec.ofBool rw ++ sel ++ data

/-- Whether an instruction is a write transaction (format W, 30_encoding R71) or a read (format R, R72). -/
def Instr.isWrite : Instr → Bool
  | .init => true
  | .crcSeed _ => true
  | .crcByte _ => true
  | .frmAddr _ => true
  | .frmClr => true
  | .frmPush _ => true
  | .frmTx => true
  | .xchFrm => true
  | .xchCmd _ => true
  | .txRaw _ => true
  | .txFlush => true
  | .rxOne => true
  | .rdStatus => false
  | .rdCrc => false
  | .rdAddr => false
  | .rdPcnt => false
  | .rdXbyte => false

/-- The selector of an instruction (30_encoding R73, R74). -/
def Instr.sel : Instr → BitVec 4
  | .init => 0x0#4
  | .crcSeed _ => 0x1#4
  | .crcByte _ => 0x2#4
  | .frmAddr _ => 0x3#4
  | .frmClr => 0x4#4
  | .frmPush _ => 0x5#4
  | .frmTx => 0x6#4
  | .xchFrm => 0x7#4
  | .xchCmd _ => 0x8#4
  | .txRaw _ => 0x9#4
  | .txFlush => 0xA#4
  | .rxOne => 0xB#4
  | .rdStatus => 0x0#4
  | .rdCrc => 0x1#4
  | .rdAddr => 0x3#4
  | .rdPcnt => 0x4#4
  | .rdXbyte => 0x8#4

/-- The canonical operand word: "Software should write them as 0", of the ignored bits (30_encoding R75). -/
def Instr.operand : Instr → Word
  | .init => 0#32
  | .crcSeed imm => imm.setWidth 32
  | .crcByte imm => imm.setWidth 32
  | .frmAddr imm => imm
  | .frmClr => 0#32
  | .frmPush imm => imm.setWidth 32
  | .frmTx => 0#32
  | .xchFrm => 0#32
  | .xchCmd imm => imm.setWidth 32
  | .txRaw imm => imm.setWidth 32
  | .txFlush => 0#32
  | .rxOne => 0#32
  | .rdStatus => 0#32
  | .rdCrc => 0#32
  | .rdAddr => 0#32
  | .rdPcnt => 0#32
  | .rdXbyte => 0#32

/-- The canonical transaction word of an instruction (30_encoding R71, R72, R75). -/
def encode (i : Instr) : Txn := packTxn i.isWrite i.sel i.operand

/-! ### The memory-mapped binding (30_encoding R79) -/

/-- The transaction a bus access is: selector `offset / 4`, a store of `data` for `rw = 1`, a load for `rw = 0`; `none` for an
access the binding does not define (20_memory R55). -/
def BusAccess.txn? (a : BusAccess) : Option Txn :=
  if a.wf then
    some (packTxn a.store (BitVec.ofNat 4 ((a.addr - Config.base) / 4)) (if a.store then a.data else 0#32))
  else none

end Sys2Proof
end

