-- ==== Sys2Proof/Machine/AgentTypes.lean ====
section
/-! DEFINITION. The host agent as plain data: where it stands in a host-side sequence of 44_host_sequences, and the Session it
holds (44_host_sequences R200). Nothing here is part of the block (00_scope R4). -/

namespace Sys2Proof.Machine

/-- The states of the Flash Session, "strictly sequential, no branching back" (44_host_sequences R200). -/
inductive Phase
  | idle
  | hostReset
  | targetReset
  | targetSelect
  | baudChange
  | receiveRequested
  | transferring
  | flashRequested
  | awaitingFlashResult
  | done
  | failed
  deriving DecidableEq, Repr

/-- The error taxonomy (60_exceptions R233). `connectionError` belongs to `open`, which is outside the model (00_scope R5). -/
inductive ErrorKind
  | transportTimeout
  | protocolDesync
  | targetError
  | validationError
  | connectionError
  deriving DecidableEq, Repr

/-- The outcome of a target response (44_host_sequences R197). -/
inductive TargetOutcome
  | acked
  | notAcked
  | notConnected
  | versionMismatch (b : Byte)
  deriving DecidableEq, Repr

/-- A TargetResponse: "`(board: 0|1..3, target: 0|1..4, outcome, elapsed_since_phase_start)`" (44_host_sequences R197). -/
structure TargetResponse where
  board : Nat
  target : Nat
  outcome : TargetOutcome
  elapsed : Nat
  deriving DecidableEq, Repr

/-- What a host sequence logs (44_host_sequences R191, R192, R198, R205; assumption 23). -/
inductive LogEntry
  /-- A Command Handshake attempt timed out (R191). -/
  | timeout (cmd : Byte)
  /-- A recognised error code, "log the mapped description" (R192, R205). -/
  | errorCode (b : Byte) (description : String)
  /-- "log "unexpected"" (R192, R205). -/
  | unexpected (b : Byte)
  /-- A target response that is logged and not appended: NotAcked, NotConnected (R198). -/
  | response (r : TargetOutcome) (board target : Nat)
  /-- "logging "waiting"" (R205). -/
  | waiting
  deriving DecidableEq, Repr

/-- How a host sequence ended. -/
inductive Ending
  /-- The sequence returned success, or the session reached `Done`. -/
  | success
  /-- The transfer was "reported as failed (no final confirmation)" (R193), or the session reached `Failed` (R205). -/
  | failed
  /-- `fatal(kind, ...)` (60_exceptions R233, R245), with the command where the call names one (44_host_sequences R191). -/
  | fatal (kind : ErrorKind) (cmd : Option Byte)
  /-- The caller's cancellation token was found set (44_host_sequences R208; assumption 22). -/
  | cancelled
  deriving DecidableEq, Repr

/-- What a run reports when it ends: how; the kinds of the error taxonomy what ended it falls under, the kind of a `fatal(...)` first
(60_exceptions R233; assumption 41); "the originating phase and the raw byte(s) observed" (60_exceptions R233, R245); the
session state it leaves; and the duration of each phase, recorded "for reporting" (44_host_sequences R200). -/
structure Report where
  ending : Ending
  kinds : List ErrorKind
  phase : Phase
  state : Phase
  raw : List Byte
  durations : List (Phase × Nat)
  deriving DecidableEq, Repr

/-- What follows a Command Handshake that succeeded (44_host_sequences R199 to R204). -/
inductive AfterCommand
  /-- The handshake was the whole sequence. -/
  | finish
  /-- Connectivity check: the aggregation follows (R199). -/
  | connectivity
  /-- Phase 2 is over: phase 3, TargetSelect (R202). -/
  | select
  /-- Phase 3's handshake is over: send the selector byte (R202). -/
  | selector
  /-- Phase 4's handshake is over: send the mapped baud code (R203). -/
  | baudCode (code : Byte)
  /-- Phase 5 is over: phase 6, Transferring (R204). -/
  | transfer
  /-- Phase 7 is over: phase 8, AwaitingFlashResult (R204, R205). -/
  | flashResult
  deriving DecidableEq, Repr

/-- What follows an aggregation whose count is right (44_host_sequences R199, R203). -/
inductive AfterAggregate
  /-- The connectivity check ends. -/
  | finish
  /-- Phase 4 is over: phase 5, ReceiveRequested. -/
  | receive
  deriving DecidableEq, Repr

/-- What follows a transfer that succeeded (44_host_sequences R193, R204). -/
inductive AfterTransfer
  /-- The transfer was the whole sequence. -/
  | finish
  /-- Phase 6 is over: phase 7, FlashRequested. -/
  | flash
  deriving DecidableEq, Repr

/-- A host sequence to run, with the TargetSelector and the baud it is run for, where it uses them. -/
inductive Job
  /-- `send_command(cmd)` (44_host_sequences R191). -/
  | command (cmd : Byte)
  /-- The connectivity check: `check-target`, then the aggregator (R199; 93_implementation_defined U3). -/
  | connectivity (selector : Byte)
  /-- `transfer(segments)` (R192). -/
  | transfer
  /-- The whole Flash Session (R200). -/
  | session (selector : Byte) (baud : Nat)
  deriving DecidableEq, Repr

/-- Where the host agent stands: what it does next, once the transactions it issued have completed. -/
inductive Point
  /-- No sequence is running. -/
  | idle
  /-- A sequence is to begin. -/
  | start (j : Job)
  /-- An attempt of `send_command(cmd)` was issued, after `timeouts` attempts that timed out (R191). -/
  | command (cmd : Byte) (timeouts : Nat) (k : AfterCommand)
  /-- The reset trigger was issued (R201). -/
  | hostReset
  /-- The selector byte was sent and one byte read (R202). -/
  | selection
  /-- The aggregator read for a target code (R198, state Collecting). -/
  | targetCode (k : AfterAggregate)
  /-- The aggregator read for the outcome byte of `code` (R198). -/
  | targetOutcome (code : Byte) (k : AfterAggregate)
  /-- The next segment still to send is to be loaded, or the image ended (R192, R193). -/
  | segment (k : AfterTransfer)
  /-- The first segment still to send was loaded (R192). -/
  | loaded (k : AfterTransfer)
  /-- `XCH.FRM` of the first segment still to send was issued (R192). -/
  | frame (k : AfterTransfer)
  /-- `END` was sent and one byte read (R193). -/
  | finalAck (k : AfterTransfer)
  /-- The flash result was read for (R205). -/
  | flashResult
  deriving DecidableEq, Repr

/-- The host agent. `phase` (the session state), `selector`, `baud` and `durations` are the Session, which "holds the current
TargetSelector, current baud, and accumulated per-phase durations" and is "created at run start, discarded at run end"
(44_host_sequences R200; assumptions 24, 34). Beside it: the parameter `FINAL_ACK` (R193), the segments still to send (R192),
what the running aggregation has collected (R198), the optional cancellation hook (what the token reads at the coming checks,
not set past the end of the list, R208; assumption 22), the log, and the report of the run that ended last. -/
structure Agent where
  point : Point
  phase : Phase
  selector : Byte
  baud : Nat
  finalAck : Byte
  segments : List Segment
  collected : List TargetResponse
  tokens : List Bool
  durations : List (Phase × Nat)
  log : List LogEntry
  result : Option Report
  deriving DecidableEq, Repr

/-- A host agent that runs no sequence (assumption 13). -/
def Agent.idle : Agent where
  point := .idle
  phase := .idle
  selector := 0#8
  baud := 0
  finalAck := 0#8
  segments := []
  collected := []
  tokens := []
  durations := []
  log := []
  result := none

end Sys2Proof.Machine
end

