-- ==== Sys2Proof/Machine/State.lean ====
section
/-! DEFINITION. The state of MSPE (10_state R20) with the parameters and the bookkeeping of a run (10_state R38), why a step can
stop, and the state after reset (10_state R39). -/

namespace Sys2Proof.Machine

/-- `RES`, the outcome of the most recent link operation or refusal (10_state R27). Code 7 does not exist ("a model's `RES`
type need not have it"). -/
inductive Res
  | none
  | sent
  | matched
  | mismatch
  | timeout
  | received
  | refused
  deriving DecidableEq, Repr

/-- `RCLS`, the class of the held response byte (10_state R28). -/
inductive RClass
  | none
  | ack
  | terr
  | other
  deriving DecidableEq, Repr

/-- The sticky flag a refusal sets (60_exceptions R231). -/
inductive RefusalFlag
  /-- `F_ILL`: a reserved selector was written. -/
  | ill
  /-- `F_LEN`: a frame was requested with `PCNT = 0`. -/
  | len
  /-- `F_OVF`: a payload byte was pushed with `PCNT = 256`. -/
  | ovf
  deriving DecidableEq, Repr

/-- A request on the host port: a transaction word (30_encoding R70), or an access under the memory-mapped binding
(30_encoding R79). -/
inductive Request
  | word (t : Txn)
  | bus (a : BusAccess)
  deriving DecidableEq, Repr

/-- The state. The first eleven fields are the block's own, and all of it (10_state R20); the others are the parameters of a
run, the model's bookkeeping (10_state R38, 70_reset_and_hazards R280) and the host agent. -/
structure State where
  /-- `CRC`, the checksum engine's running value (10_state R21). -/
  crc : Crc
  /-- `ADDR`, the segment's start address (10_state R22). -/
  addr : Word
  /-- `PCNT`, payload bytes loaded, 0 to 256 (10_state R23). -/
  pcnt : BitVec 9
  /-- `PBUF`, the entries that hold a value (10_state R24; assumption 3). -/
  pbuf : List Host.Cell
  /-- `EXP` (10_state R25). -/
  exp : Byte
  /-- `RXB` (10_state R26). -/
  rxb : Byte
  /-- `RXV` (10_state R26). -/
  rxv : Bool
  /-- `RES` (10_state R27). -/
  res : Res
  /-- `F_ILL` (10_state R29). -/
  fIll : Bool
  /-- `F_LEN` (10_state R29). -/
  fLen : Bool
  /-- `F_OVF` (10_state R29). -/
  fOvf : Bool
  /-- The oracle: the Transport's answers to the coming reads, first first (20_memory R62; assumption 1). -/
  answers : List (Option Byte)
  /-- The event history, oldest first (20_memory R66; assumption 8). -/
  events : List LinkEvent
  /-- The host's requests still to be issued, first first (70_reset_and_hazards R280; assumption 5). -/
  requests : List Request
  /-- The words the read transactions returned, oldest first (70_reset_and_hazards R280; assumption 7). -/
  returned : List Word
  /-- The host agent (00_scope R4, R7; assumption 15). -/
  agent : Agent
  deriving DecidableEq, Repr

/-- Why the machine stops with a fault. No operation of the block faults (60_exceptions R230): each constructor is raised only
in states that no run reaches, and stopping there is safe. -/
inductive Fault
  /-- Raised by the frame serialiser (`FRM.TX`, `XCH.FRM`) when an entry of `PBUF` it must read holds no value
  (93_implementation_defined U11). Safe. -/
  | pbufNoValue
  /-- Raised by `FRM.PUSH` when `PCNT` names an entry that does not exist, above 256 (20_memory R50). Safe. -/
  | pbufNoEntry
  /-- Raised by the host agent when it must judge an answer and no read transaction has returned its words (assumption 26).
  Safe. -/
  | hostNoWords
  deriving DecidableEq, Repr

/-- Why the machine gives a request no meaning. -/
inductive Refusal
  /-- An instruction whose meaning is not written. Raised by no arm of this model. Safe. -/
  | notModelled (mnemonic : String)
  /-- Raised by the host port for a bus access that is not an aligned 32-bit access inside the block's 64-byte window: "a
  model gives it no meaning (refuses it)" (20_memory R55, 93_implementation_defined U14). Safe. -/
  | busAccessUndefined
  deriving DecidableEq, Repr

/-- The machine right after reset (10_state R39, 70_reset_and_hazards R260, R261), with nothing issued, no request and the
host agent idle (assumptions 2, 5, 7, 13). -/
def State.reset : State where
  crc := 0xFFFF#16
  addr := 0x00000000#32
  pcnt := 0#9
  pbuf := []
  exp := 0x00#8
  rxb := 0x00#8
  rxv := false
  res := .none
  fIll := false
  fLen := false
  fOvf := false
  answers := []
  events := []
  requests := []
  returned := []
  agent := Agent.idle

end Sys2Proof.Machine
end

