-- ==== Sys2Proof/Machine/Flags.lean ====
section
/-! DEFINITION. The codes of `RES` and `RCLS`, the classification of a response byte, the judgement of an exchange and the status
word (10_state R27, R28, R30; 42_exchange R140 to R142; 43_system R171). -/

namespace Sys2Proof.Machine

/-- The code of `RES` (10_state R27). -/
def resCode : Res → BitVec 3
  | .none => 0#3
  | .sent => 1#3
  | .matched => 2#3
  | .mismatch => 3#3
  | .timeout => 4#3
  | .received => 5#3
  | .refused => 6#3

/-- The code of `RCLS` (10_state R28). -/
def rclassCode : RClass → BitVec 2
  | .none => 0#2
  | .ack => 1#2
  | .terr => 2#2
  | .other => 3#2

/-- `is_terr(b)`: one of the eleven target error codes (42_exchange R141, 30_encoding R84). -/
def isTerr (b : Byte) : Bool := (Config.targetErrors.map Prod.fst).contains b

/-- `rclass(v, b)`, the tests in the order of 42_exchange R142. -/
def rclass (v : Bool) (b : Byte) : RClass :=
  if v = false then .none
  else if b = Config.wireAck then .ack
  else if isTerr b then .terr
  else .other

/-- The judgement of an exchange that expects the byte `e`: timeout, match or mismatch (42_exchange R140, R148). -/
def judge (e : Byte) : Option Byte → Res
  | none => .timeout
  | some b => if b = e then .matched else .mismatch

/-- The outcome of `RX.ONE`, which compares nothing (42_exchange R147). -/
def judgeRaw : Option Byte → Res
  | none => .timeout
  | some _ => .received

/-- `STATUS` (10_state R30), packed as 43_system R171 writes it. -/
def statusWord (s : State) : Word :=
  0#21 ++ BitVec.ofBool s.fOvf ++ BitVec.ofBool s.fLen ++ BitVec.ofBool s.fIll ++ 0#2 ++ BitVec.ofBool s.rxv
    ++ rclassCode (rclass s.rxv s.rxb) ++ resCode s.res

end Sys2Proof.Machine
end

