-- ==== Sys2Proof/Machine/Operands.lean ====
section
/-! DEFINITION. The byte order of the wire, the register words the host reads, and the fields the host takes out of them
(00_scope R9; 10_state R31 to R34; 20_memory R52). -/

namespace Sys2Proof.Machine

/-- `le16(v) = [v[7:0], v[15:8]]` (00_scope R9). -/
def le16 (v : BitVec 16) : List Byte := [v.extractLsb' 0 8, v.extractLsb' 8 8]

/-- `le32(v)`, least significant byte first (00_scope R9). -/
def le32 (v : BitVec 32) : List Byte :=
  [v.extractLsb' 0 8, v.extractLsb' 8 8, v.extractLsb' 16 8, v.extractLsb' 24 8]

/-- The `CRC` register as the host reads it, `zext_32(CRC)` (10_state R32). -/
def crcWord (s : State) : Word := s.crc.setWidth 32

/-- The `ADDR` register as the host reads it (10_state R33). -/
def addrWord (s : State) : Word := s.addr

/-- The `PCNT` register as the host reads it, `zext_32(PCNT)` (10_state R34). -/
def pcntWord (s : State) : Word := s.pcnt.setWidth 32

/-- `XBYTE = {zext_16(0), RXB, EXP}` (10_state R31, 43_system R175). -/
def xbyteWord (s : State) : Word := 0#16 ++ s.rxb ++ s.exp

/-! ### Fields of `STATUS` and `XBYTE`, as the host reads them back (10_state R30, R31) -/

/-- `RES`, `STATUS` bits 2:0. -/
def statusRes (st : Word) : BitVec 3 := st.extractLsb' 0 3

/-- `RCLS`, `STATUS` bits 4:3. -/
def statusRcls (st : Word) : BitVec 2 := st.extractLsb' 3 2

/-- `RXV`, `STATUS` bit 5. -/
def statusRxv (st : Word) : Bool := st.getLsbD 5

/-- `EXP`, `XBYTE` bits 7:0. -/
def xbyteExp (x : Word) : Byte := x.extractLsb' 0 8

/-- `RXB`, `XBYTE` bits 15:8. -/
def xbyteRxb (x : Word) : Byte := x.extractLsb' 8 8

end Sys2Proof.Machine
end

