-- ==== Sys2Proof/Machine/Ops.lean ====
section
/-! DEFINITION. The shared operations: the payload memory, the link primitives, the held byte, what a refusal does, the reset
state, the checksum step, the frame serialiser and a register read. -/

namespace Sys2Proof.Machine

/-! ### Memory: a canonical list of cells (20_memory R50, R51) -/

/-- The byte at index `a`, if the entry holds a value. -/
def Memory.read : List Host.Cell → Nat → Option Byte
  | [], _ => none
  | (k, v) :: m, a => if k = a then some v else Memory.read m a

/-- Store `b` at index `a`, keeping the indices rising. -/
def Memory.write : List Host.Cell → Nat → Byte → List Host.Cell
  | [], a, b => [(a, b)]
  | (k, v) :: m, a, b =>
    if a < k then (a, b) :: (k, v) :: m
    else if a = k then (a, b) :: m
    else (k, v) :: Memory.write m a b

/-- The canonical form: indices strictly rising. An unlisted index holds no value, so no entry can equal it. -/
def Memory.wf : List Host.Cell → Bool
  | [] => true
  | [_] => true
  | (a, _) :: (b, y) :: m => decide (a < b) && Memory.wf ((b, y) :: m)

/-- What a rule can read of `PBUF`: an entry below `PCNT` ("Only entries `0 .. PCNT-1` have a defined content, and only those
are ever read", 10_state R24) that exists (20_memory R50). -/
def State.pbufRead (s : State) (i : Nat) : Option Byte :=
  if i < s.pcnt.toNat ∧ i < Config.pbufSize then Memory.read s.pbuf i else none

/-- The `n` bytes of `PBUF` from index `i` on, in index order, if each can be read. -/
def State.payloadFrom (s : State) (i : Nat) : Nat → Option (List Byte)
  | 0 => some []
  | n + 1 =>
    match s.pbufRead i, s.payloadFrom (i + 1) n with
    | some b, some bs => some (b :: bs)
    | _, _ => none

/-- The loaded payload `PBUF[0 .. PCNT-1]` (41_frame_codec R120). -/
def State.payload (s : State) : Option (List Byte) := s.payloadFrom 0 s.pcnt.toNat

/-! ### Link primitives (00_scope R10) -/

/-- `LinkWrite(b)`. -/
def State.linkWrite (s : State) (b : Byte) : State := { s with events := s.events ++ [.tx b] }

/-- `LinkFlush()`. -/
def State.linkFlush (s : State) : State := { s with events := s.events ++ [.flush] }

/-- The answer a `LinkRead1()` gets after the further events `es`: the oracle's next, and when the oracle's list is used up the
free value (20_memory R62; assumption 1). -/
def State.answerAfter (s : State) (es : List LinkEvent) : Option Byte :=
  match s.answers with
  | a :: _ => a
  | [] => Config.linkAnswer (s.events ++ es)

/-- The answer a `LinkRead1()` made now gets. -/
def State.linkAnswer (s : State) : Option Byte := s.answerAfter []

/-- `LinkRead1()`: the answer is consumed from the Transport and recorded (20_memory R56, R66). -/
def State.linkRead (s : State) : State :=
  { s with answers := s.answers.tail, events := s.events ++ [.rx s.linkAnswer] }

/-! ### The held byte (10_state R26) -/

/-- `RXV <- 0; RXB <- 0x00` (42_exchange R149). -/
def State.clearHeld (s : State) : State := { s with rxv := false, rxb := 0x00#8 }

/-- Hold an answer: `Some b` sets `RXB <- b; RXV <- 1`, `None` leaves both as they are. -/
def State.hold (s : State) : Option Byte → State
  | none => s
  | some b => { s with rxb := b, rxv := true }

/-- `a <- LinkRead1()` and the answer held (42_exchange R150: exactly one read). -/
def State.receive (s : State) : State := s.linkRead.hold s.linkAnswer

/-- `RES <- r`. -/
def State.setRes (s : State) (r : Res) : State := { s with res := r }

/-! ### Refusal: the block's one exception (60_exceptions R236) -/

/-- Set the named sticky flag. -/
def State.setFlag (s : State) : RefusalFlag → State
  | .ill => { s with fIll := true }
  | .len => { s with fLen := true }
  | .ovf => { s with fOvf := true }

/-- `raise Refused(flag)`: "the operation writes `flag <- 1` and `RES <- 6` and nothing else" (60_exceptions R236, 00_scope R11).
There is nothing to return from (60_exceptions R237). -/
def State.refuse (s : State) (f : RefusalFlag) : State := (s.setFlag f).setRes .refused

/-- The reset state of the block's own fields (10_state R39, 43_system R170). The entries of `PBUF` hold no value afterwards
(assumption 3); the Transport, the history and the host are not touched (70_reset_and_hazards R261). -/
def State.resetBlock (s : State) : State :=
  { s with
    crc := Config.crcSeed, addr := 0#32, pcnt := 0#9, pbuf := [], exp := 0x00#8, rxb := 0x00#8, rxv := false,
    res := .none, fIll := false, fLen := false, fOvf := false }

/-! ### The checksum engine (40_checksum) -/

/-- One iteration of the loop of 40_checksum R100: the top bit is tested before the shift. -/
def crcBit (v : Crc) : Crc := if v.msb then (v <<< 1) ^^^ Config.crcPoly else v <<< 1

/-- `n` iterations. -/
def crcBits : Nat → Crc → Crc
  | 0, v => v
  | n + 1, v => crcBits n (crcBit v)

/-- `crc_byte(c, b)`: XOR the byte into the high byte, then 8 iterations (40_checksum R100). -/
def crcByte (c : Crc) (b : Byte) : Crc := crcBits 8 (c ^^^ (b.setWidth 16 <<< 8))

/-- `crc16(bs, seed)`, the left fold of `crc_byte` (40_checksum R101). -/
def crc16 (bs : List Byte) (seed : Crc) : Crc := bs.foldl crcByte seed

/-- `CRC <- crc_byte(CRC, b)`. -/
def State.absorb (s : State) (b : Byte) : State := { s with crc := crcByte s.crc b }

/-! ### The frame serialiser (41_frame_codec) -/

/-- The frame's checksum `K` (41_frame_codec R122). -/
def frameChecksum (a : Word) (p : List Byte) : Crc :=
  crc16 (le32 a ++ le16 (BitVec.ofNat 16 p.length) ++ p) Config.crcSeed

/-- `frame_bytes(A, P)` (41_frame_codec R123). DESIGN CHOICE (assumption 38): R123 does not define it for an empty payload or one
above 256 bytes; here it is total, by the same formula, the length field taken modulo `2^16`. No instruction asks for it there. -/
def frameBytes (a : Word) (p : List Byte) : List Byte :=
  [Config.wireStart] ++ (le32 a ++ le16 (BitVec.ofNat 16 p.length)) ++ p ++ le16 (frameChecksum a p)

/-- Write covered bytes: each is absorbed into `CRC` and handed to the link in the same step (41_frame_codec R127, R128). -/
def State.sendCovered (s : State) : List Byte → State
  | [] => s
  | b :: bs => ((s.absorb b).linkWrite b).sendCovered bs

/-- The two checksum bytes, low byte first, not absorbed (41_frame_codec R127). -/
def State.sendChecksum (s : State) : State :=
  (s.linkWrite (s.crc.extractLsb' 0 8)).linkWrite (s.crc.extractLsb' 8 8)

/-- The transmit part of `FRM.TX` for the payload `p`, from `CRC <- 0xFFFF` to the second checksum byte (41_frame_codec R127).
`PCNT` is the length field; the payload is what `PBUF` holds. -/
def State.transmitFrame (s : State) (p : List Byte) : State :=
  let s1 := ({ s with crc := Config.crcSeed }).linkWrite Config.wireStart
  let s2 := s1.sendCovered (le32 s.addr)
  let s3 := s2.sendCovered (le16 (s.pcnt.setWidth 16))
  let s4 := s3.sendCovered p
  s4.sendChecksum

/-! ### The host port -/

/-- A read transaction returns a word to the host (30_encoding R72, 70_reset_and_hazards R280). -/
def State.returnWord (s : State) (w : Word) : State := { s with returned := s.returned ++ [w] }

end Sys2Proof.Machine
end

