-- ==== Sys2Proof/Machine/Agent.lean ====
section
/-! DEFINITION. The host agent: the host-side sequences of 44_host_sequences, software and not hardware. A move of the agent
looks only at its own data and at the words its reads returned, and only issues further transactions (assumption 15); the
block does the rest. -/

namespace Sys2Proof.Machine

/-! ### Target Address Book (44_host_sequences R194 to R196) -/

/-- `popcount(v)`, the number of 1 bits (00_scope R9). -/
def popcount (v : Byte) : Nat := ((List.range 8).map fun k => (v.getLsbD k).toNat).sum

/-- `expected_count(S)` (44_host_sequences R195). -/
def expectedCount (selector : Byte) : Nat :=
  popcount (selector &&& 0x0F#8) * popcount ((selector >>> 4) &&& 0x07#8)

/-- The board list of a selector, "boards with set bits": bit `4+j` selects board `j+1` (44_host_sequences R194). -/
def boardList (selector : Byte) : List Nat := ([0, 1, 2].filter fun j => selector.getLsbD (4 + j)).map (· + 1)

/-- The target list of a selector, "target slots with set bits": bit `k` selects slot `k+1` (44_host_sequences R194). -/
def targetList (selector : Byte) : List Nat := ([0, 1, 2, 3].filter fun k => selector.getLsbD k).map (· + 1)

/-- The board of a target code's high nibble, 0 for an unrecognised nibble (44_host_sequences R196). -/
def boardOf (h : BitVec 4) : Nat :=
  if h = 0b0001#4 then 1 else if h = 0b0010#4 then 2 else if h = 0b0100#4 then 3 else 0

/-- The target of a target code's low nibble, 0 for an unrecognised nibble (44_host_sequences R196). -/
def targetOf (l : BitVec 4) : Nat :=
  if l = 0b0001#4 then 1 else if l = 0b0010#4 then 2 else if l = 0b0100#4 then 3 else if l = 0b1000#4 then 4 else 0

/-- The board a target code names: `board(code[7:4])` (44_host_sequences R198). -/
def codeBoard (code : Byte) : Nat := boardOf (code.extractLsb' 4 4)

/-- The target a target code names: `target(code[3:0])` (44_host_sequences R198). -/
def codeTarget (code : Byte) : Nat := targetOf (code.extractLsb' 0 4)

/-- The outcome byte of a target response, the tests in the order of 44_host_sequences R198 (assumption 18). -/
def outcomeOf (b : Byte) : TargetOutcome :=
  if b = Config.aggAck then .acked
  else if b = Config.aggNack then .notAcked
  else if b = 0x00#8 then .notConnected
  else .versionMismatch b

/-- The description of a byte in the error-code table (30_encoding R84). -/
def descriptionOf (b : Byte) : String := ((Config.targetErrors.find? fun e => e.1 == b).map Prod.snd).getD ""

/-- The code of a supported baud (30_encoding R85, 44_host_sequences R209). -/
def baudCode (baud : Nat) : Option Byte := (Config.baudCodes.find? fun e => e.1 == baud).map Prod.snd

/-! ### Moves -/

/-- The host issues instructions, in order, and goes to the point `p`. -/
def State.issue (s : State) (is : List Instr) (p : Point) : State :=
  { s with
    requests := s.requests ++ is.map fun i => .word (encode i)
    agent := { s.agent with point := p } }

/-- The two reads the host makes after an operation to judge it (44_host_sequences: "fields read back with `RD.STATUS` and
`RD.XBYTE` after the call"). -/
def readBack : List Instr := [.rdStatus, .rdXbyte]

/-- Log an entry. -/
def State.note (s : State) (e : LogEntry) : State := { s with agent := { s.agent with log := s.agent.log ++ [e] } }

/-- The durations with that of the current phase recorded (44_host_sequences R200; assumptions 16, 31). Idle is no phase of a
session that runs. -/
def State.phaseDurations (s : State) : List (Phase × Nat) :=
  if s.agent.phase = .idle then s.agent.durations
  else s.agent.durations ++ [(s.agent.phase, Config.phaseDuration s.events)]

/-- Go to the next session phase; the phase that ends records its duration (44_host_sequences R200). -/
def State.enterPhase (s : State) (p : Phase) : State :=
  { s with agent := { s.agent with phase := p, durations := s.phaseDurations } }

/-- A run starts: a new Session, in state Idle with nothing accumulated, an empty log and no report, and `INIT` is the first
thing issued (44_host_sequences R200, 60_exceptions R245, 70_reset_and_hazards R264; assumption 24). The host stands at `p`. -/
def State.beginRun (s : State) (selector : Byte) (baud : Nat) (p : Point := .idle) : State :=
  let fresh : Agent := { s.agent with
    phase := .idle, selector := selector, baud := baud, collected := [], durations := [], log := [], result := none }
  { s with agent := fresh }.issue [.init] p

/-- The run ends and reports: how, the kinds of error it falls under, the phase it ended in, the session state it leaves, and the
raw bytes observed. No further transaction of it is issued (60_exceptions R245), the last phase records its duration, and the
Session is discarded (44_host_sequences R200). -/
def State.conclude (s : State) (ending : Ending) (state : Phase) (raw : List Byte) (kinds : List ErrorKind := []) : State :=
  { s with agent := { s.agent with
      point := .idle
      phase := .idle
      selector := 0#8
      baud := 0
      durations := []
      result := some {
        ending := ending, kinds := kinds, phase := s.agent.phase, state := state, raw := raw
        durations := s.phaseDurations } } }

/-- A list of error kinds with each kind once, where it stands first. -/
def distinct : List ErrorKind → List ErrorKind
  | [] => []
  | k :: ks => k :: (distinct ks).filter (· != k)

/-- `fatal(kind, ...)`: the run ends, with the originating phase and the raw bytes (60_exceptions R233, R245).
DESIGN CHOICE (assumption 33): the session's state stays the originating phase; `Failed` is not entered, of which R200 and R245
say nothing. DESIGN CHOICE (assumption 35): a sequence run on its own, outside a session, has the phase Idle.
DESIGN CHOICE (assumption 41): `kinds` are what else R233 calls the failure; they are reported after the call's own kind. -/
def State.fatal (s : State) (kind : ErrorKind) (raw : List Byte) (cmd : Option Byte := none) (kinds : List ErrorKind := []) :
    State :=
  s.conclude (.fatal kind cmd) s.agent.phase raw (distinct (kind :: kinds))

/-- One more iteration of an unbounded loop: the cancellation token is checked, "each iteration", and the run ends if it is set
(44_host_sequences R208, 93_implementation_defined U2; assumption 22). With no hook, the empty list, the loop has no cap.
DESIGN CHOICE (assumption 22): a reading that is not set is taken off the list, one that is set stays, so that the token stays set
for a later run until the caller gives another list; the spec says neither. -/
def State.iterate (s : State) (again : State → State) : State :=
  match s.agent.tokens with
  | true :: _ => s.conclude .cancelled s.agent.phase []
  | false :: ts => again { s with agent := { s.agent with tokens := ts } }
  | [] => again s

/-- The raw bytes observed, out of `STATUS` and `XBYTE`: the held byte, if there is one. -/
def rawBytes (st x : Word) : List Byte := if statusRxv st then [xbyteRxb x] else []

/-- The kind of error an answer is that is not the one awaited: no byte a TransportTimeout, a recognised error code a TargetError
and any other byte a ProtocolDesync, "told apart by `RCLS`" (60_exceptions R232, R233). -/
def answerKind (st : Word) : ErrorKind :=
  if statusRes st = resCode .timeout then .transportTimeout
  else if statusRcls st = rclassCode .terr then .targetError
  else .protocolDesync

/-- Log a recognised error code with its mapped description (44_host_sequences R192, R205, 60_exceptions R233). -/
def State.noteError (s : State) (x : Word) : State := s.note (.errorCode (xbyteRxb x) (descriptionOf (xbyteRxb x)))

/-- A TargetError is "logged with its description", wherever it ends a run; any other answer is not (60_exceptions R233). -/
def State.noteTargetError (s : State) (st x : Word) : State :=
  { s with agent := { s.agent with
      log := s.agent.log ++
        if answerKind st = .targetError then [.errorCode (xbyteRxb x) (descriptionOf (xbyteRxb x))] else [] } }

/-- Issue one attempt of `send_command(cmd)` (44_host_sequences R191). -/
def State.issueCommand (s : State) (cmd : Byte) (timeouts : Nat) (k : AfterCommand) : State :=
  s.issue (.xchCmd cmd :: readBack) (.command cmd timeouts k)

/-- Issue a one-byte read (44_host_sequences R198, R205). -/
def State.issueRead (s : State) (p : Point) : State := s.issue (.rxOne :: readBack) p

/-- Enter the aggregator: state Collecting, nothing collected (44_host_sequences R198). -/
def State.beginAggregate (s : State) (k : AfterAggregate) : State :=
  ({ s with agent := { s.agent with collected := [] } }).issueRead (.targetCode k)

/-- The next iteration of the aggregator's loop: read for a target code (44_host_sequences R198). -/
def State.nextCode (s : State) (k : AfterAggregate) : State := s.iterate fun s' => s'.issueRead (.targetCode k)

/-- Load a segment: `FRM.LOAD A, P` (44_host_sequences R192, 30_encoding R81). -/
def loadSegment (g : Segment) : List Instr := .frmAddr g.addr :: .frmClr :: g.payload.map .frmPush

/-- Load a segment, unless its address is an "out-of-range target address": that is a ValidationError, "raised before" anything of
the segment is issued (60_exceptions R233; assumption 39). The load is read back, so that a refused push does not pass unseen (R233;
assumption 19). -/
def State.issueLoad (s : State) (g : Segment) (k : AfterTransfer) : State :=
  if Config.segmentOutOfRange g.addr then s.fatal .validationError []
  else s.issue (loadSegment g ++ readBack) (.loaded k)

/-- The next segment of the transfer, or the end-of-image handshake when none is left (44_host_sequences R192, R193). -/
def State.nextSegment (s : State) (k : AfterTransfer) : State :=
  match s.agent.segments with
  | g :: _ => s.issueLoad g k
  | [] => s.issue (.txRaw Config.wireEnd :: .txFlush :: .rxOne :: readBack) (.finalAck k)

/-- Whether a selector selects an out-of-range (board, target slot) address (44_host_sequences R194; assumption 39). -/
def selectsOutOfRange (selector : Byte) : Bool :=
  (boardList selector).any fun b => (targetList selector).any fun t => Config.slotOutOfRange b t

/-- Send the selector byte and read its response (44_host_sequences R202), unless it selects an out-of-range target address, a
ValidationError "raised before" it is sent (60_exceptions R233; assumption 39). -/
def State.sendSelector (s : State) : State :=
  if selectsOutOfRange s.agent.selector then s.fatal .validationError []
  else s.issue (.txRaw s.agent.selector :: .txFlush :: .rxOne :: readBack) .selection

/-- Send the loaded segment (44_host_sequences R192). -/
def State.sendSegment (s : State) (k : AfterTransfer) : State := s.issue (.xchFrm :: readBack) (.frame k)

/-- Send the same segment again, with no reloading (44_host_sequences R192, 41_frame_codec R131). -/
def State.retrySegment (s : State) (k : AfterTransfer) : State :=
  s.iterate fun s' => s'.sendSegment k

/-- Phase 4, BaudChange: an unsupported baud is rejected before anything is sent (44_host_sequences R203; assumption 21).
DESIGN CHOICE (assumption 34): the baud requested here is the Session's one baud field, which R200 calls "current baud"; the spec
does not say they are the same, and nothing updates it. -/
def State.beginBaudChange (s : State) : State :=
  let s1 := s.enterPhase .baudChange
  match baudCode s.agent.baud with
  | none => s1.fatal .validationError []
  | some c => s1.issueCommand Config.cmdBaudChange 0 (.baudCode c)

/-- What follows a handshake that succeeded (44_host_sequences R199 to R205). -/
def State.afterCommand (s : State) : AfterCommand → State
  | .finish => s.conclude .success s.agent.phase []
  | .connectivity => s.beginAggregate .finish
  | .select => (s.enterPhase .targetSelect).issueCommand Config.cmdSelectTarget 0 .selector
  | .selector => s.sendSelector
  | .baudCode c => (s.issue [.txRaw c, .txFlush] .idle).beginAggregate .receive
  | .transfer => (s.enterPhase .transferring).nextSegment .flash
  | .flashResult => (s.enterPhase .awaitingFlashResult).issueRead .flashResult

/-- Begin a run of a sequence; a session's first phase is HostReset (44_host_sequences R201). A sequence run on its own is no
session, and stays in state Idle (assumption 35). A transfer on its own looks at its first segment only after its `INIT` has
completed: a run that ends there leaves nothing outstanding (60_exceptions R245). -/
def State.beginJob (s : State) : Job → State
  | .command cmd => (s.beginRun 0#8 0).issueCommand cmd 0 .finish
  | .connectivity selector => (s.beginRun selector 0).issueCommand Config.cmdCheckTarget 0 .connectivity
  | .transfer => s.beginRun 0#8 0 (.segment .finish)
  | .session selector baud =>
    ((s.beginRun selector baud).enterPhase .hostReset).issue [.txRaw Config.wireRst, .txFlush] .hostReset

/-- Judge an attempt of `send_command(cmd)` (44_host_sequences R191): success, fatal on a wrong acknowledgement, and on a
timeout log, count, and send again or, at five, fatal. A wrong acknowledgement that is a recognised error code is logged, and
reported as a TargetError beside R191's ProtocolDesync (60_exceptions R232, R233; assumption 37). -/
def State.judgeCommand (s : State) (cmd : Byte) (timeouts : Nat) (k : AfterCommand) (st x : Word) : State :=
  if statusRes st = resCode .matched then s.afterCommand k
  else if statusRes st = resCode .mismatch then
    (s.noteTargetError st x).fatal .protocolDesync (rawBytes st x) (some cmd) [answerKind st]
  else if timeouts + 1 = Config.maxAttempts then (s.note (.timeout cmd)).fatal .transportTimeout [] (some cmd)
  else (s.note (.timeout cmd)).issueCommand cmd (timeouts + 1) k

/-- Judge the response to the selector byte (44_host_sequences R202); a TargetError is "logged with its description"
(60_exceptions R233). -/
def State.judgeSelection (s : State) (st x : Word) : State :=
  if statusRes st = resCode .received ∧ statusRcls st = rclassCode .ack then s.beginBaudChange
  else if statusRes st = resCode .received ∧ statusRcls st = rclassCode .terr then
    (s.noteError x).fatal .targetError (rawBytes st x)
  else s.fatal .protocolDesync (rawBytes st x) none [answerKind st]

/-- Append an acknowledged response to the collected set (44_host_sequences R198). -/
def State.collect (s : State) (r : TargetResponse) : State :=
  { s with agent := { s.agent with collected := s.agent.collected ++ [r] } }

/-- The aggregation is `Done`: the post-condition on the count (44_host_sequences R199), then what follows. -/
def State.aggregateDone (s : State) (k : AfterAggregate) (st x : Word) : State :=
  if s.agent.collected.length = expectedCount s.agent.selector then
    match k with
    | .finish => s.conclude .success s.agent.phase []
    | .receive => (s.enterPhase .receiveRequested).issueCommand Config.cmdReceiveImage 0 .transfer
  else s.fatal .validationError (rawBytes st x)

/-- The aggregator has read for a target code (44_host_sequences R198). -/
def State.judgeTargetCode (s : State) (k : AfterAggregate) (st x : Word) : State :=
  if statusRes st = resCode .timeout then s.nextCode k
  else if xbyteRxb x = Config.wireFin then s.aggregateDone k st x
  else s.issueRead (.targetOutcome (xbyteRxb x) k)

/-- The kind of the `fatal(...)` an `Aborted` aggregation ends with: a ValidationError in the baud change (44_host_sequences R203),
and for the connectivity check the "malformed aggregation stream" of a ProtocolDesync (60_exceptions R233; assumption 20). -/
def AfterAggregate.abortKind : AfterAggregate → ErrorKind
  | .finish => .protocolDesync
  | .receive => .validationError

/-- `Aborted`: the run ends, with the code and what came after it as the raw bytes. A "malformed aggregation stream" is a
ProtocolDesync too, and a byte that is a recognised error code a TargetError, logged (60_exceptions R233; assumption 20). -/
def State.abortAggregate (s : State) (k : AfterAggregate) (st x : Word) (raw : List Byte) : State :=
  (s.noteTargetError st x).fatal k.abortKind raw none [.protocolDesync, answerKind st]

/-- The aggregator has read for the outcome byte of `code` (44_host_sequences R198): a missing byte or an unknown one aborts; every
other outcome is one iteration done, and the loop goes on. -/
def State.judgeOutcome (s : State) (code : Byte) (k : AfterAggregate) (st x : Word) : State :=
  if statusRes st = resCode .timeout then s.abortAggregate k st x [code]
  else
    match outcomeOf (xbyteRxb x) with
    | .acked =>
      (s.collect {
        board := codeBoard code, target := codeTarget code, outcome := .acked,
        elapsed := Config.responseElapsed s.events }).nextCode k
    | .notAcked => (s.note (.response .notAcked (codeBoard code) (codeTarget code))).nextCode k
    | .notConnected => (s.note (.response .notConnected (codeBoard code) (codeTarget code))).nextCode k
    | .versionMismatch b => s.abortAggregate k st x [code, b]

/-- Judge the load of a segment: a refused push is the host's own validation failure, and nothing is sent (60_exceptions R231,
R233; assumption 19); otherwise send it. -/
def State.judgeLoaded (s : State) (k : AfterTransfer) (st _x : Word) : State :=
  if statusRes st = resCode .refused then s.fatal .validationError [] else s.sendSegment k

/-- Judge the answer to a frame: the four cases of the Image Transfer (44_host_sequences R192, 42_exchange R144), and a refusal,
which the host treats as its own validation failure (60_exceptions R233; assumption 19). -/
def State.judgeFrame (s : State) (k : AfterTransfer) (st x : Word) : State :=
  if statusRes st = resCode .matched then
    ({ s with agent := { s.agent with segments := s.agent.segments.tail } }).nextSegment k
  else if statusRes st = resCode .timeout then s.retrySegment k
  else if statusRes st = resCode .refused then s.fatal .validationError []
  else if statusRcls st = rclassCode .terr then (s.noteError x).retrySegment k
  else (s.note (.unexpected (xbyteRxb x))).retrySegment k

/-- Judge the final acknowledgement (44_host_sequences R193); a failed transfer aborts the session before the flash command
(R204), and reports its phase and raw bytes (60_exceptions R245).
DESIGN CHOICE (assumption 33): the session aborted here leaves the state `Failed`; the spec says only "abort the session", and
names `Failed` only after AwaitingFlashResult.
DESIGN CHOICE (assumption 40): a wrong byte, a recognised error code among them, and a timeout all end as `failed`, as R193 says,
and not as a `fatal(...)`; the kind R233 gives the answer is reported, and a recognised error code logged. -/
def State.judgeFinalAck (s : State) (k : AfterTransfer) (st x : Word) : State :=
  if statusRes st = resCode .received ∧ xbyteRxb x = s.agent.finalAck then
    match k with
    | .finish => s.conclude .success s.agent.phase []
    | .flash => (s.enterPhase .flashRequested).issueCommand Config.cmdFlashImage 0 .flashResult
  else
    match k with
    | .finish => (s.noteTargetError st x).conclude .failed s.agent.phase (rawBytes st x) [answerKind st]
    | .flash => (s.noteTargetError st x).conclude .failed .failed (rawBytes st x) [answerKind st]

/-- Judge the flash result: the loop retries only on a timeout (44_host_sequences R205). -/
def State.judgeFlash (s : State) (st x : Word) : State :=
  if statusRes st = resCode .received then
    if xbyteRxb x = Config.wireFsl then s.conclude .success .done (rawBytes st x)
    else if statusRcls st = rclassCode .terr then
      (s.noteError x).conclude .failed .failed (rawBytes st x) [.targetError]
    else (s.note (.unexpected (xbyteRxb x))).conclude .failed .failed (rawBytes st x) [.protocolDesync]
  else (s.note .waiting).iterate fun s' => s'.issueRead .flashResult

/-- The words of the last two reads, `STATUS` and `XBYTE`, if two were made. -/
def State.lastWords (s : State) : Option (Word × Word) :=
  match s.returned.reverse with
  | x :: st :: _ => some (st, x)
  | _ => none

/-- Judge with the words just read back (assumption 26). -/
def State.withWords (s : State) (f : Word → Word → State) : Host.Outcome State Fault Refusal :=
  match s.lastWords with
  | none => .fault .hostNoWords
  | some (st, x) => .next (f st x)

/-- One move of the host agent, made when no request is outstanding. An idle host issues nothing (00_scope R7;
60_exceptions R244; assumption 6). -/
def agentStep (s : State) : Host.Outcome State Fault Refusal :=
  match s.agent.point with
  | .idle => .next s
  | .start j => .next (s.beginJob j)
  | .hostReset => .next ((s.enterPhase .targetReset).issueCommand Config.cmdResetTarget 0 .select)
  | .command cmd t k => s.withWords (s.judgeCommand cmd t k)
  | .selection => s.withWords s.judgeSelection
  | .targetCode k => s.withWords (s.judgeTargetCode k)
  | .targetOutcome code k => s.withWords (s.judgeOutcome code k)
  | .segment k => .next (s.nextSegment k)
  | .loaded k => s.withWords (s.judgeLoaded k)
  | .frame k => s.withWords (s.judgeFrame k)
  | .finalAck k => s.withWords (s.judgeFinalAck k)
  | .flashResult => s.withWords s.judgeFlash

end Sys2Proof.Machine
end

