-- ==== Sys2Proof/Machine/Checksum.lean ====
section
/-! DEFINITION. The checksum engine's operations (40_checksum). -/

namespace Sys2Proof.Machine

/-- `CRC.SEED`: `CRC <- imm16` (40_checksum R103). -/
def execCrcSeed (imm : BitVec 16) (s : State) : Host.Outcome State Fault Refusal :=
  .next { s with crc := imm }

/-- `CRC.BYTE`: `CRC <- crc_byte(CRC, imm8)` (40_checksum R104). -/
def execCrcByte (imm : BitVec 8) (s : State) : Host.Outcome State Fault Refusal :=
  .next (s.absorb imm)

end Sys2Proof.Machine
end

