-- ==== Sys2Proof/Machine/Exchange.lean ====
section
/-! DEFINITION. Exchanges and raw link operations (42_exchange): one attempt each, no retry (42_exchange R151). -/

namespace Sys2Proof.Machine

/-- The end of an exchange that expects `e`: flush, read one byte or time out, judge (42_exchange R140, R143, R144). -/
def State.finishExchange (s : State) (e : Byte) : State :=
  let s1 := s.linkFlush
  s1.receive.setRes (judge e s1.linkAnswer)

/-- `XCH.CMD`: one attempt of the Command Handshake (42_exchange R143). -/
def execXchCmd (imm : BitVec 8) (s : State) : Host.Outcome State Fault Refusal :=
  .next (((({ s with exp := imm }).clearHeld).linkWrite imm).finishExchange imm)

/-- `XCH.FRM`: one attempt at sending the loaded segment and getting its one-byte answer (42_exchange R144). -/
def execXchFrm (s : State) : Host.Outcome State Fault Refusal :=
  if s.pcnt = 0#9 then .next (s.refuse .len)
  else
    match s.payload with
    | none => .fault .pbufNoValue
    | some p =>
      .next (((({ s with exp := Config.wireAck }).clearHeld).transmitFrame p).finishExchange Config.wireAck)

/-- `TX.RAW`: write one byte to the link, nothing more (42_exchange R145). -/
def execTxRaw (imm : BitVec 8) (s : State) : Host.Outcome State Fault Refusal :=
  .next ((s.linkWrite imm).setRes .sent)

/-- `TX.FLUSH`: flush the link (42_exchange R146). -/
def execTxFlush (s : State) : Host.Outcome State Fault Refusal :=
  .next (s.linkFlush.setRes .sent)

/-- `RX.ONE`: read one byte from the link with the Transport's timeout (42_exchange R147). -/
def execRxOne (s : State) : Host.Outcome State Fault Refusal :=
  .next (s.clearHeld.receive.setRes (judgeRaw s.linkAnswer))

end Sys2Proof.Machine
end

