-- ==== Sys2Proof/Machine/Frame.lean ====
section
/-! DEFINITION. The frame codec's operations (41_frame_codec). -/

namespace Sys2Proof.Machine

/-- `FRM.ADDR`: `ADDR <- imm32` (41_frame_codec R124). -/
def execFrmAddr (imm : BitVec 32) (s : State) : Host.Outcome State Fault Refusal :=
  .next { s with addr := imm }

/-- `FRM.CLR`: `PCNT <- 0` (41_frame_codec R125). No entry of `PBUF` holds a value afterwards until it is pushed again
(10_state R24, assumption 3). -/
def execFrmClr (s : State) : Host.Outcome State Fault Refusal :=
  .next { s with pcnt := 0#9, pbuf := [] }

/-- `FRM.PUSH`: `PBUF[PCNT] <- imm8; PCNT <- PCNT + 1`, refused with `F_OVF` at `PCNT = 256` (41_frame_codec R126). A count
above 256, which no run reaches, names no entry and faults (assumption 4). -/
def execFrmPush (imm : BitVec 8) (s : State) : Host.Outcome State Fault Refusal :=
  if s.pcnt.toNat = Config.pbufSize then .next (s.refuse .ovf)
  else if s.pcnt.toNat < Config.pbufSize then
    .next { s with pbuf := Memory.write s.pbuf s.pcnt.toNat imm, pcnt := s.pcnt + 1#9 }
  else .fault .pbufNoEntry

/-- `FRM.TX`: refused with `F_LEN` on an empty payload; else the frame is written to the link and `RES <- 1`
(41_frame_codec R127). -/
def execFrmTx (s : State) : Host.Outcome State Fault Refusal :=
  if s.pcnt = 0#9 then .next (s.refuse .len)
  else
    match s.payload with
    | none => .fault .pbufNoValue
    | some p => .next ((s.transmitFrame p).setRes .sent)

end Sys2Proof.Machine
end

