-- ==== Sys2Proof/Machine/System.lean ====
section
/-! DEFINITION. The system operation, the register reads and the reserved selectors (43_system). -/

namespace Sys2Proof.Machine

/-- `INIT`: put the block in its reset state (43_system R170). -/
def execInit (s : State) : Host.Outcome State Fault Refusal :=
  .next s.resetBlock

/-- `RD.STATUS` (43_system R171). -/
def execRdStatus (s : State) : Host.Outcome State Fault Refusal :=
  .next (s.returnWord (statusWord s))

/-- `RD.CRC` (43_system R172). -/
def execRdCrc (s : State) : Host.Outcome State Fault Refusal :=
  .next (s.returnWord (crcWord s))

/-- `RD.ADDR` (43_system R173). -/
def execRdAddr (s : State) : Host.Outcome State Fault Refusal :=
  .next (s.returnWord (addrWord s))

/-- `RD.PCNT` (43_system R174). -/
def execRdPcnt (s : State) : Host.Outcome State Fault Refusal :=
  .next (s.returnWord (pcntWord s))

/-- `RD.XBYTE` (43_system R175). -/
def execRdXbyte (s : State) : Host.Outcome State Fault Refusal :=
  .next (s.returnWord (xbyteWord s))

/-- A reserved write selector: `raise Refused(F_ILL)`, a step of the machine (43_system R176, 93_implementation_defined U7). -/
def reservedWrite (s : State) : Host.Outcome State Fault Refusal :=
  .next (s.refuse .ill)

/-- A reserved read selector: returns `0x00000000`, no side effect (43_system R177). -/
def reservedRead (s : State) : Host.Outcome State Fault Refusal :=
  .next (s.returnWord 0x00000000#32)

end Sys2Proof.Machine
end

