-- ==== Sys2Proof/Machine/Dispatch.lean ====
section
/-! DEFINITION. Dispatch: one arm per instruction (30_encoding R73, R74). -/

namespace Sys2Proof.Machine

def exec (i : Instr) (s : State) : Host.Outcome State Fault Refusal :=
  match i with
  | .init => Sys2Proof.Machine.execInit s
  | .crcSeed imm => Sys2Proof.Machine.execCrcSeed imm s
  | .crcByte imm => Sys2Proof.Machine.execCrcByte imm s
  | .frmAddr imm => Sys2Proof.Machine.execFrmAddr imm s
  | .frmClr => Sys2Proof.Machine.execFrmClr s
  | .frmPush imm => Sys2Proof.Machine.execFrmPush imm s
  | .frmTx => Sys2Proof.Machine.execFrmTx s
  | .xchFrm => Sys2Proof.Machine.execXchFrm s
  | .xchCmd imm => Sys2Proof.Machine.execXchCmd imm s
  | .txRaw imm => Sys2Proof.Machine.execTxRaw imm s
  | .txFlush => Sys2Proof.Machine.execTxFlush s
  | .rxOne => Sys2Proof.Machine.execRxOne s
  | .rdStatus => Sys2Proof.Machine.execRdStatus s
  | .rdCrc => Sys2Proof.Machine.execRdCrc s
  | .rdAddr => Sys2Proof.Machine.execRdAddr s
  | .rdPcnt => Sys2Proof.Machine.execRdPcnt s
  | .rdXbyte => Sys2Proof.Machine.execRdXbyte s

end Sys2Proof.Machine
end

