-- ==== Sys2Proof/Machine/Port.lean ====
section
/-! DEFINITION. The host port: which transaction comes next (20_memory R59, 30_encoding R70, R79). -/

namespace Sys2Proof.Machine

/-- The transaction a request presents to the block, if the binding defines it (30_encoding R79, 20_memory R55). -/
def Request.txn? : Request → Option Txn
  | .word t => some t
  | .bus a => a.txn?

/-- What the block finds at its host port. -/
inductive Fetched
  /-- No request is outstanding. -/
  | nothing
  /-- The next request is a bus access the binding does not define. -/
  | undefinedAccess
  /-- The next request is the transaction `d`; `s` is the state with that request taken. -/
  | txn (d : Decoded) (s : State)
  deriving DecidableEq, Repr

/-- Take the next request, in the order issued (20_memory R59), and decode it. -/
def fetch (s : State) : Fetched :=
  match s.requests with
  | [] => .nothing
  | r :: rest =>
    match r.txn? with
    | none => .undefinedAccess
    | some t => .txn (decode t) { s with requests := rest }

/-- The state in which the next request is the transaction numbered `w` (spec/opcode_table.json's numbering, assumption 27). -/
def State.presentWord (s : State) (w : Nat) : State :=
  { s with requests := .word (BitVec.ofNat 37 w) :: s.requests }

end Sys2Proof.Machine
end

