-- ==== Sys2Proof/Machine/Step.lean ====
section
/-! DEFINITION. One step (00_scope R6: "one host transaction taken to completion"): the next outstanding request, and when there
is none, one move of the host agent. -/

namespace Sys2Proof.Machine

/-- One step of the machine. A decoded instruction runs as `exec`; a reserved selector is performed by its own operation
(43_system R176, R177); an undefined bus access is refused (20_memory R55). -/
def step (s : State) : Host.Outcome State Fault Refusal :=
  match fetch s with
  | .nothing => agentStep s
  | .undefinedAccess => .refused .busAccessUndefined
  | .txn (.op i) s' => exec i s'
  | .txn (.reservedWrite _) s' => reservedWrite s'
  | .txn (.reservedRead _) s' => reservedRead s'

/-- The host's entry: `s` with the instruction numbered `w` as the next request (assumptions 5 and 27). The instruction is the
one 37-bit transaction, so nothing of it lies above `nbits`. -/
def State.withFetchWord (s : State) (_nbits w : Nat) : State := s.presentWord w

end Sys2Proof.Machine
end

