-- ==== Sys2Proof/Safety.lean ====
section
/-! DEFINITION. The terms claims are stated in: the invariant of reachable states, a run with nothing refused, the transmitted
stream, what of a state belongs to the block, and which instruction may write what. -/

namespace Sys2Proof.Safety

open Sys2Proof.Machine

/-- The invariants of 10_state R40 and 42_exchange R153: `PCNT` is at most 256 and exactly the entries below it hold a value;
with `RXV = 0` the held byte is `0x00`; and `RES` agrees with the held byte. -/
abbrev Inv (s : State) : Prop :=
  s.pcnt.toNat ≤ Config.pbufSize ∧
  s.pbuf.map Prod.fst = List.range s.pcnt.toNat ∧
  (s.rxv = false → s.rxb = 0x00#8) ∧
  (s.res = .matched → s.rxv = true ∧ s.rxb = s.exp) ∧
  (s.res = .mismatch → s.rxv = true ∧ s.rxb ≠ s.exp) ∧
  (s.res = .timeout → s.rxv = false) ∧
  (s.res = .received → s.rxv = true)

/-- "No fault recorded": `F_ILL = F_LEN = F_OVF = 0` (60_exceptions R237, 70_reset_and_hazards R281). -/
abbrev NothingRefused (s : State) : Prop := s.fIll = false ∧ s.fLen = false ∧ s.fOvf = false

/-- The transmitted stream of a history: the bytes of its `Tx` events, in order (20_memory R66). -/
def transmitted : List LinkEvent → List Byte
  | [] => []
  | .tx b :: es => b :: transmitted es
  | .flush :: es => transmitted es
  | .rx _ :: es => transmitted es

/-- The number of `LinkRead1` calls of a history. -/
def reads : List LinkEvent → Nat
  | [] => 0
  | .tx _ :: es => reads es
  | .flush :: es => reads es
  | .rx _ :: es => reads es + 1

/-- Whether every read of a history finds all bytes written before it flushed (70_reset_and_hazards R271); `dirty` says that a
byte written before the history is not flushed. -/
def readsFlushed : Bool → List LinkEvent → Bool
  | _, [] => true
  | _, .tx _ :: es => readsFlushed true es
  | _, .flush :: es => readsFlushed false es
  | dirty, .rx _ :: es => !dirty && readsFlushed dirty es

/-- Two states agree in the block's own state, all of it (10_state R20). -/
def SameBlock (s t : State) : Prop :=
  t.crc = s.crc ∧ t.addr = s.addr ∧ t.pcnt = s.pcnt ∧ t.pbuf = s.pbuf ∧ t.exp = s.exp ∧ t.rxb = s.rxb ∧ t.rxv = s.rxv ∧
  t.res = s.res ∧ t.fIll = s.fIll ∧ t.fLen = s.fLen ∧ t.fOvf = s.fOvf

/-- Two states agree in what stands on the link: the history and the answers still to come. -/
def SameLink (s t : State) : Prop := t.events = s.events ∧ t.answers = s.answers

/-- Two states agree in the host's side: requests, returned words, agent. -/
def SameHost (s t : State) : Prop := t.requests = s.requests ∧ t.returned = s.returned ∧ t.agent = s.agent

/-- A frame as link events. -/
def frameEvents (a : Word) (p : List Byte) : List LinkEvent := (frameBytes a p).map .tx

/-- The byte the serialiser writes at position `p` of the frame of `(a, pl)` (41_frame_codec R128). -/
def positionByte (a : Word) (pl : List Byte) (p : Nat) : Option Byte :=
  if p = 0 then some 0x55#8
  else if p ≤ 4 then some (a.extractLsb' (8 * (p - 1)) 8)
  else if p = 5 then some (BitVec.ofNat 8 pl.length)
  else if p = 6 then some (BitVec.ofNat 8 (pl.length / 256))
  else if p ≤ 6 + pl.length then pl[p - 7]?
  else if p = 7 + pl.length then some ((frameChecksum a pl).extractLsb' 0 8)
  else if p = 8 + pl.length then some ((frameChecksum a pl).extractLsb' 8 8)
  else none

/-! ### The access summary (10_state R42): which instruction may write an item -/

/-- Rows of the summary with a `w` under `CRC`. -/
def writesCrc : Instr → Bool
  | .init | .crcSeed _ | .crcByte _ | .frmTx | .xchFrm => true
  | .frmAddr _ | .frmClr | .frmPush _ | .xchCmd _ | .txRaw _ | .txFlush | .rxOne => false
  | .rdStatus | .rdCrc | .rdAddr | .rdPcnt | .rdXbyte => false

/-- Rows of the summary with a `w` under `ADDR`. -/
def writesAddr : Instr → Bool
  | .init | .frmAddr _ => true
  | .crcSeed _ | .crcByte _ | .frmClr | .frmPush _ | .frmTx | .xchFrm | .xchCmd _ | .txRaw _ | .txFlush | .rxOne => false
  | .rdStatus | .rdCrc | .rdAddr | .rdPcnt | .rdXbyte => false

/-- Rows of the summary with a `w` under `PCNT`. -/
def writesPcnt : Instr → Bool
  | .init | .frmClr | .frmPush _ => true
  | .crcSeed _ | .crcByte _ | .frmAddr _ | .frmTx | .xchFrm | .xchCmd _ | .txRaw _ | .txFlush | .rxOne => false
  | .rdStatus | .rdCrc | .rdAddr | .rdPcnt | .rdXbyte => false

/-- Rows of the summary with a `w` under `PBUF`. `INIT` and `FRM.CLR` have none: they leave no entry readable by zeroing `PCNT`. -/
def writesPbuf : Instr → Bool
  | .frmPush _ => true
  | .init | .crcSeed _ | .crcByte _ | .frmAddr _ | .frmClr | .frmTx | .xchFrm | .xchCmd _ | .txRaw _ | .txFlush => false
  | .rxOne | .rdStatus | .rdCrc | .rdAddr | .rdPcnt | .rdXbyte => false

/-- Rows of the summary with a `w` under `EXP`. -/
def writesExp : Instr → Bool
  | .init | .xchFrm | .xchCmd _ => true
  | .crcSeed _ | .crcByte _ | .frmAddr _ | .frmClr | .frmPush _ | .frmTx | .txRaw _ | .txFlush | .rxOne => false
  | .rdStatus | .rdCrc | .rdAddr | .rdPcnt | .rdXbyte => false

/-- Rows of the summary with a `w` under `RXB,RXV`. -/
def writesHeld : Instr → Bool
  | .init | .xchFrm | .xchCmd _ | .rxOne => true
  | .crcSeed _ | .crcByte _ | .frmAddr _ | .frmClr | .frmPush _ | .frmTx | .txRaw _ | .txFlush => false
  | .rdStatus | .rdCrc | .rdAddr | .rdPcnt | .rdXbyte => false

/-- Rows of the summary with a `w` or `w*` under `RES`. -/
def writesRes : Instr → Bool
  | .init | .frmPush _ | .frmTx | .xchFrm | .xchCmd _ | .txRaw _ | .txFlush | .rxOne => true
  | .crcSeed _ | .crcByte _ | .frmAddr _ | .frmClr => false
  | .rdStatus | .rdCrc | .rdAddr | .rdPcnt | .rdXbyte => false

/-- Rows of the summary with a `w` or `w*` under `F_ILL`, but for the reserved writes, which are no instruction. -/
def writesFIll : Instr → Bool
  | .init => true
  | .crcSeed _ | .crcByte _ | .frmAddr _ | .frmClr | .frmPush _ | .frmTx | .xchFrm | .xchCmd _ | .txRaw _ | .txFlush => false
  | .rxOne | .rdStatus | .rdCrc | .rdAddr | .rdPcnt | .rdXbyte => false

/-- Rows of the summary with a `w` or `w*` under `F_LEN`. -/
def writesFLen : Instr → Bool
  | .init | .frmTx | .xchFrm => true
  | .crcSeed _ | .crcByte _ | .frmAddr _ | .frmClr | .frmPush _ | .xchCmd _ | .txRaw _ | .txFlush | .rxOne => false
  | .rdStatus | .rdCrc | .rdAddr | .rdPcnt | .rdXbyte => false

/-- Rows of the summary with a `w` or `w*` under `F_OVF`. -/
def writesFOvf : Instr → Bool
  | .init | .frmPush _ => true
  | .crcSeed _ | .crcByte _ | .frmAddr _ | .frmClr | .frmTx | .xchFrm | .xchCmd _ | .txRaw _ | .txFlush | .rxOne => false
  | .rdStatus | .rdCrc | .rdAddr | .rdPcnt | .rdXbyte => false

/-- The six link operations (10_state R27). -/
def isLinkOp : Instr → Bool
  | .frmTx | .xchFrm | .xchCmd _ | .txRaw _ | .txFlush | .rxOne => true
  | .init | .crcSeed _ | .crcByte _ | .frmAddr _ | .frmClr | .frmPush _ => false
  | .rdStatus | .rdCrc | .rdAddr | .rdPcnt | .rdXbyte => false

/-- The three receiving operations (10_state R26). -/
def isReceiving : Instr → Bool
  | .xchFrm | .xchCmd _ | .rxOne => true
  | .init | .crcSeed _ | .crcByte _ | .frmAddr _ | .frmClr | .frmPush _ | .frmTx | .txRaw _ | .txFlush => false
  | .rdStatus | .rdCrc | .rdAddr | .rdPcnt | .rdXbyte => false

/-- The refusal condition of an instruction in a state, with the flag it raises: the complete list of 60_exceptions R231 but
for the reserved selectors, which are no instruction. -/
def refusal (i : Instr) (s : State) : Option RefusalFlag :=
  match i with
  | .frmPush _ => if s.pcnt.toNat = 256 then some .ovf else none
  | .frmTx | .xchFrm => if s.pcnt.toNat = 0 then some .len else none
  | .init | .crcSeed _ | .crcByte _ | .frmAddr _ | .frmClr | .xchCmd _ | .txRaw _ | .txFlush | .rxOne => none
  | .rdStatus | .rdCrc | .rdAddr | .rdPcnt | .rdXbyte => none

/-- How many bits of `data` the operation with this write selector uses (30_encoding R73, R75). -/
def usedBits (sel : BitVec 4) : Nat :=
  if sel = 0x1#4 then 16
  else if sel = 0x3#4 then 32
  else if sel = 0x2#4 ∨ sel = 0x5#4 ∨ sel = 0x8#4 ∨ sel = 0x9#4 then 8
  else 0

/-- Whether a read selector is assigned (30_encoding R74). -/
def readAssigned (sel : BitVec 4) : Bool :=
  sel == 0x0#4 || sel == 0x1#4 || sel == 0x3#4 || sel == 0x4#4 || sel == 0x8#4

/-! ### The host agent -/

/-- The requests of a list of instructions. -/
def issued (is : List Instr) : List Request := is.map fun i => .word (encode i)

/-- The run has ended so, and reports this phase and these raw bytes (60_exceptions R245): nothing is outstanding. -/
def Ended (t : State) (e : Ending) (phase : Phase) (raw : List Byte) : Prop :=
  t.requests = [] ∧ t.agent.point = .idle ∧
  ∃ r, t.agent.result = some r ∧ r.ending = e ∧ r.phase = phase ∧ r.raw = raw

/-- A loop without a cap goes on: the host issues `is` and waits at `p`; if the caller's cancellation token is set the run ends
instead (44_host_sequences R208; assumption 22). -/
def GoesOn (s t : State) (is : List Instr) (p : Point) : Prop :=
  if s.agent.tokens.head? = some true then Ended t .cancelled s.agent.phase []
  else t.requests = issued is ∧ t.agent.point = p ∧ t.agent.result = s.agent.result

/-- One timed-out attempt of `send_command(cmd)` as link events (42_exchange R143). -/
def attempt (cmd : Byte) (a : Option Byte) : List LinkEvent := [.tx cmd, .flush, .rx a]

/-- The link events of attempts with the given answers, in order. -/
def attempts (cmd : Byte) : List (Option Byte) → List LinkEvent
  | [] => []
  | a :: as => attempt cmd a ++ attempts cmd as

end Sys2Proof.Safety
end

