-- ==== Sys2Proof/Certificates/Slice0/Obligations.lean ====
section
/-! DEFINITION. The statements for the provers. Each docstring names the rules of spec/ it formalises. -/

open Sys2Proof Sys2Proof.Machine Sys2Proof.Safety

/-! ### Encoding -/

/-- 30_encoding R71, R72, R75: the canonical word of every well-formed instruction decodes to it, every operand at every value. -/
def Obligations.DecodeEncodeRoundTrip : Prop :=
  ∀ i : Instr, i.wf = true → decode (encode i) = .op i

/-- 30_encoding R70 to R72: a transaction as a number, `rw * 2^36 + sel * 2^32 + data`, and its fields read back. -/
def Obligations.TransactionIsItsNumber : Prop :=
  ∀ (rw : Bool) (sel : BitVec 4) (data : Word),
    (packTxn rw sel data).toNat = (if rw then 0x1000000000 else 0) + sel.toNat * 0x100000000 + data.toNat ∧
    rwOf (packTxn rw sel data) = rw ∧ selOf (packTxn rw sel data) = sel ∧ dataOf (packTxn rw sel data) = data

/-- 30_encoding R89: for every 37-bit word exactly one of the four holds, and transactions that differ only in ignored bits
(30_encoding R72, R75) are the same instruction. -/
def Obligations.DecodingIsTotal : Prop :=
  (∀ t : Txn,
    if rwOf t = true then
      if (selOf t).toNat ≤ 0xB then ∃ i, decode t = .op i ∧ i.isWrite = true ∧ i.sel = selOf t
      else decode t = .reservedWrite (selOf t)
    else if readAssigned (selOf t) = true then ∃ i, decode t = .op i ∧ i.isWrite = false ∧ i.sel = selOf t
    else decode t = .reservedRead (selOf t)) ∧
  (∀ t u : Txn, rwOf t = rwOf u → selOf t = selOf u →
    (rwOf t = true → (dataOf t).toNat % 2 ^ usedBits (selOf t) = (dataOf u).toNat % 2 ^ usedBits (selOf u)) →
    decode t = decode u)

/-- Words of 95_test_vectors (B1.5, B2.3, B3, B4) decode to the transactions the spec prints beside them. -/
def Obligations.SpecWordsDecode : Prop :=
  decode 0x10DEADBEEF#37 = .op .init ∧
  decode 0x11ABCD1234#37 = .op (.crcSeed 0x1234#16) ∧
  decode 0x12FFFFFF00#37 = .op (.crcByte 0x00#8) ∧
  decode 0x1300008000#37 = .op (.frmAddr 0x00008000#32) ∧
  decode 0x1400000000#37 = .op .frmClr ∧
  decode 0x15FFFFFF7E#37 = .op (.frmPush 0x7E#8) ∧
  decode 0x1800000019#37 = .op (.xchCmd 0x19#8) ∧
  decode 0x190000005B#37 = .op (.txRaw 0x5B#8) ∧
  decode 0x1B00000000#37 = .op .rxOne ∧
  decode 0x00FFFFFFFF#37 = .op .rdStatus ∧
  decode 0x0800000000#37 = .op .rdXbyte ∧
  decode 0x1FFFFFFFFF#37 = .reservedWrite 0xF#4 ∧
  decode 0x0200000000#37 = .reservedRead 0x2#4

/-- 30_encoding R79 and 20_memory R55: the aligned 32-bit access at `BASE + 4*sel` is the transaction `sel`, a store carrying
its data; every other access is undefined, and the host port refuses it. -/
def Obligations.BusAccessIsItsTransaction : Prop :=
  (∀ (sel : BitVec 4) (data : Word),
    BusAccess.txn? { store := true, addr := Config.base + 4 * sel.toNat, width := 4, data := data } =
      some (packTxn true sel data)) ∧
  (∀ (sel : BitVec 4) (data : Word),
    BusAccess.txn? { store := false, addr := Config.base + 4 * sel.toNat, width := 4, data := data } =
      some (packTxn false sel 0#32)) ∧
  (∀ (a : BusAccess) (s : State) (rest : List Request),
    (¬ ∃ k, k < 16 ∧ a.width = 4 ∧ a.addr = Config.base + 4 * k) → s.requests = .bus a :: rest →
    step s = .refused .busAccessUndefined)

/-! ### One step -/

/-- 00_scope R6, 20_memory R59: when the next request is a transaction (a word, or an access the binding defines) that decodes to
an instruction, the step is that instruction's meaning, on the state with the request taken. -/
def Obligations.StepRunsDecodedInstruction : Prop :=
  ∀ (s : State) (r : Request) (rest : List Request) (t : Txn) (i : Instr),
    s.requests = r :: rest → r.txn? = some t → decode t = .op i → step s = exec i { s with requests := rest }

/-- 43_system R176: a write with a selector of 0xC or above sets `F_ILL` and `RES = 6`, nothing else, whatever `data`; the
request may be a word or a bus store (30_encoding R79). -/
def Obligations.ReservedWriteIsRefused : Prop :=
  ∀ (s : State) (r : Request) (rest : List Request) (sel : BitVec 4) (data : Word),
    0xC ≤ sel.toNat → s.requests = r :: rest → r.txn? = some (packTxn true sel data) →
    step s = .next { s with requests := rest, fIll := true, res := .refused }

/-- 43_system R177: a read with a reserved selector returns zero and changes no state; the request may be a word or a bus load
(30_encoding R79). -/
def Obligations.ReservedReadReturnsZero : Prop :=
  ∀ (s : State) (r : Request) (rest : List Request) (sel : BitVec 4) (data : Word),
    sel ∈ [0x2#4, 0x5#4, 0x6#4, 0x7#4, 0x9#4, 0xA#4, 0xB#4, 0xC#4, 0xD#4, 0xE#4, 0xF#4] →
    s.requests = r :: rest → r.txn? = some (packTxn false sel data) →
    step s = .next { s with requests := rest, returned := s.returned ++ [0#32] }

/-- 00_scope R7 (2), 60_exceptions R244: with no transaction in progress the block changes no state and issues no link event,
whatever the host agent does. -/
def Obligations.NoTransactionNoChange : Prop :=
  ∀ s t : State, s.requests = [] → step s = .next t → SameBlock s t ∧ SameLink s t ∧ t.returned = s.returned

/-! ### The instructions -/

/-- 43_system R170: `INIT` leaves every register at its reset value, no payload byte readable, and touches neither the link nor
the host. -/
def Obligations.InitGivesResetState : Prop :=
  ∀ (data : Word) (s : State), decode (packTxn true 0x0#4 data) = .op .init ∧
    ∃ t, exec .init s = .next t ∧
      t.crc = 0xFFFF#16 ∧ t.addr = 0#32 ∧ t.pcnt = 0#9 ∧ t.exp = 0x00#8 ∧ t.rxb = 0x00#8 ∧ t.rxv = false ∧
      t.res = .none ∧ t.fIll = false ∧ t.fLen = false ∧ t.fOvf = false ∧
      (∀ i, t.pbufRead i = none) ∧ SameLink s t ∧ SameHost s t

/-- 40_checksum R103: `CRC.SEED` writes `data[15:0]` to `CRC` and nothing else. -/
def Obligations.CrcSeedLoadsSeed : Prop :=
  ∀ (data : Word) (s : State),
    decode (packTxn true 0x1#4 data) = .op (.crcSeed (data.extractLsb' 0 16)) ∧
    exec (.crcSeed (data.extractLsb' 0 16)) s = .next { s with crc := data.extractLsb' 0 16 }

/-- 40_checksum R104: `CRC.BYTE` writes `crc_byte(CRC, data[7:0])` to `CRC` and nothing else. -/
def Obligations.CrcByteAbsorbsByte : Prop :=
  ∀ (data : Word) (s : State),
    decode (packTxn true 0x2#4 data) = .op (.crcByte (data.extractLsb' 0 8)) ∧
    exec (.crcByte (data.extractLsb' 0 8)) s = .next { s with crc := crcByte s.crc (data.extractLsb' 0 8) }

/-- 41_frame_codec R124: `FRM.ADDR` writes all 32 bits of `data` to `ADDR` and nothing else. -/
def Obligations.FrmAddrSetsAddress : Prop :=
  ∀ (data : Word) (s : State),
    decode (packTxn true 0x3#4 data) = .op (.frmAddr data) ∧ exec (.frmAddr data) s = .next { s with addr := data }

/-- 41_frame_codec R125: `FRM.CLR` empties the payload: `PCNT` is zero, no entry is readable, nothing else changes. -/
def Obligations.FrmClrEmptiesPayload : Prop :=
  ∀ (data : Word) (s : State), decode (packTxn true 0x4#4 data) = .op .frmClr ∧
    ∃ t, exec .frmClr s = .next t ∧ (∀ i, t.pbufRead i = none) ∧ t = { s with pcnt := 0#9, pbuf := t.pbuf }

/-- 41_frame_codec R126: below 256 `FRM.PUSH` appends its byte at index `PCNT` and counts it; at 256 it is refused with `F_OVF`
and the byte is discarded. Every other payload byte reads as before, and nothing else changes. -/
def Obligations.FrmPushAppends : Prop :=
  ∀ (data : Word) (s : State),
    decode (packTxn true 0x5#4 data) = .op (.frmPush (data.extractLsb' 0 8)) ∧
    (s.pcnt.toNat = 256 →
      exec (.frmPush (data.extractLsb' 0 8)) s = .next { s with fOvf := true, res := .refused }) ∧
    (s.pcnt.toNat < 256 →
      ∃ t, exec (.frmPush (data.extractLsb' 0 8)) s = .next t ∧
        t.pcnt.toNat = s.pcnt.toNat + 1 ∧
        t.pbufRead s.pcnt.toNat = some (data.extractLsb' 0 8) ∧
        (∀ i, i ≠ s.pcnt.toNat → t.pbufRead i = s.pbufRead i) ∧
        t = { s with pcnt := t.pcnt, pbuf := t.pbuf })

/-- 41_frame_codec R127, R122, R123: `FRM.TX` on an empty payload is refused with `F_LEN`; otherwise it appends exactly the
`Tx` events of `frame_bytes(ADDR, PBUF[0 .. PCNT-1])`, leaves the frame's checksum in `CRC` and `RES = 1`, and changes nothing
else. The payload `p` is what the entries of `PBUF` read as. -/
def Obligations.FrmTxSendsTheFrame : Prop :=
  ∀ (data : Word) (s : State),
    decode (packTxn true 0x6#4 data) = .op .frmTx ∧
    (s.pcnt = 0#9 → exec .frmTx s = .next { s with fLen := true, res := .refused }) ∧
    (Inv s → s.pcnt ≠ 0#9 →
      ∃ p : List Byte, p.length = s.pcnt.toNat ∧ (∀ i, i < p.length → s.pbufRead i = p[i]?) ∧
        exec .frmTx s = .next { s with
          crc := frameChecksum s.addr p, res := .sent, events := s.events ++ (frameBytes s.addr p).map .tx })

/-- 42_exchange R144: `XCH.FRM` on an empty payload is refused with `F_LEN`; otherwise it writes the frame, flushes, reads once,
and records expected byte, answer, judgement and frame checksum, and nothing else. -/
def Obligations.XchFrmExchangesFrame : Prop :=
  ∀ (data : Word) (s : State),
    decode (packTxn true 0x7#4 data) = .op .xchFrm ∧
    (s.pcnt = 0#9 → exec .xchFrm s = .next { s with fLen := true, res := .refused }) ∧
    (Inv s → s.pcnt ≠ 0#9 →
      ∃ p : List Byte, p.length = s.pcnt.toNat ∧ (∀ i, i < p.length → s.pbufRead i = p[i]?) ∧
        ∃ a : Option Byte, a = s.answerAfter ((frameBytes s.addr p).map .tx ++ [.flush]) ∧
          exec .xchFrm s = .next { s with
            exp := 0xAA#8
            rxv := a.isSome
            rxb := a.getD 0x00#8
            res := if a = none then .timeout else if a = some 0xAA#8 then .matched else .mismatch
            crc := frameChecksum s.addr p
            answers := s.answers.tail
            events := s.events ++ (frameBytes s.addr p).map .tx ++ [.flush, .rx a] })

/-- 42_exchange R143: `XCH.CMD` writes its byte, flushes, reads once, and records expected byte, answer and judgement, and
nothing else. -/
def Obligations.XchCmdExchangesCommand : Prop :=
  ∀ (data : Word) (s : State), ∃ (cmd : Byte) (a : Option Byte),
    cmd = data.extractLsb' 0 8 ∧ a = s.answerAfter [.tx cmd, .flush] ∧
    decode (packTxn true 0x8#4 data) = .op (.xchCmd cmd) ∧
    exec (.xchCmd cmd) s = .next { s with
      exp := cmd
      rxv := a.isSome
      rxb := a.getD 0x00#8
      res := if a = none then .timeout else if a = some cmd then .matched else .mismatch
      answers := s.answers.tail
      events := s.events ++ [.tx cmd, .flush, .rx a] }

/-- 42_exchange R145: `TX.RAW` appends `Tx(imm8)`, sets `RES = 1`, and changes nothing else. -/
def Obligations.TxRawWritesByte : Prop :=
  ∀ (data : Word) (s : State),
    decode (packTxn true 0x9#4 data) = .op (.txRaw (data.extractLsb' 0 8)) ∧
    exec (.txRaw (data.extractLsb' 0 8)) s =
      .next { s with res := .sent, events := s.events ++ [.tx (data.extractLsb' 0 8)] }

/-- 42_exchange R146: `TX.FLUSH` appends `Flush`, sets `RES = 1`, and changes nothing else. -/
def Obligations.TxFlushFlushes : Prop :=
  ∀ (data : Word) (s : State),
    decode (packTxn true 0xA#4 data) = .op .txFlush ∧
    exec .txFlush s = .next { s with res := .sent, events := s.events ++ [.flush] }

/-- 42_exchange R147: `RX.ONE` reads once and records answer and outcome, compares nothing, and changes nothing else. -/
def Obligations.RxOneReceives : Prop :=
  ∀ (data : Word) (s : State), ∃ a : Option Byte, a = s.answerAfter [] ∧
    decode (packTxn true 0xB#4 data) = .op .rxOne ∧
    exec .rxOne s = .next { s with
      rxv := a.isSome
      rxb := a.getD 0x00#8
      res := if a = none then .timeout else .received
      answers := s.answers.tail
      events := s.events ++ [.rx a] }

/-- 43_system R171: `RD.STATUS` returns the word whose number is
`RES + 8*rclass(RXV,RXB) + 32*RXV + 256*F_ILL + 512*F_LEN + 1024*F_OVF`, and changes nothing else. `RES` is 10_state R27's seven
numbers. -/
def Obligations.RdStatusReturnsStatus : Prop :=
  ∀ (data : Word) (s : State),
    decode (packTxn false 0x0#4 data) = .op .rdStatus ∧
    ∃ w : Word, exec .rdStatus s = .next { s with returned := s.returned ++ [w] } ∧
      w.toNat =
        (match s.res with
          | .none => 0 | .sent => 1 | .matched => 2 | .mismatch => 3 | .timeout => 4 | .received => 5 | .refused => 6) +
        8 * (rclassCode (rclass s.rxv s.rxb)).toNat + 32 * s.rxv.toNat +
        256 * s.fIll.toNat + 512 * s.fLen.toNat + 1024 * s.fOvf.toNat

/-- 43_system R172 to R175: each other register read returns its register, zero-extended, and changes nothing else. -/
def Obligations.RegisterReadsReturnTheRegister : Prop :=
  ∀ (data : Word) (s : State),
    (decode (packTxn false 0x1#4 data) = .op .rdCrc ∧
      ∃ w : Word, exec .rdCrc s = .next { s with returned := s.returned ++ [w] } ∧ w.toNat = s.crc.toNat) ∧
    (decode (packTxn false 0x3#4 data) = .op .rdAddr ∧
      exec .rdAddr s = .next { s with returned := s.returned ++ [s.addr] }) ∧
    (decode (packTxn false 0x4#4 data) = .op .rdPcnt ∧
      ∃ w : Word, exec .rdPcnt s = .next { s with returned := s.returned ++ [w] } ∧ w.toNat = s.pcnt.toNat) ∧
    (decode (packTxn false 0x8#4 data) = .op .rdXbyte ∧
      ∃ w : Word, exec .rdXbyte s = .next { s with returned := s.returned ++ [w] } ∧
        w.toNat = s.exp.toNat + 256 * s.rxb.toNat)

/-- 10_state R30, R31: the words that reads of selectors `0x0` and `0x8` return, bit by bit: the fields where the layouts put
them, every other bit zero, `RES` by 10_state R27's numbers; and both registers are read-only: a write to their selector is `INIT`, `XCH.CMD`. -/
def Obligations.RegisterLayouts : Prop :=
  ∀ (s : State) (data : Word),
    (∃ w : Word, decode (packTxn false 0x0#4 data) = .op .rdStatus ∧
      exec .rdStatus s = .next { s with returned := s.returned ++ [w] } ∧
      w.extractLsb' 0 3 =
        (match s.res with
          | .none => 0#3 | .sent => 1#3 | .matched => 2#3 | .mismatch => 3#3 | .timeout => 4#3 | .received => 5#3
          | .refused => 6#3) ∧
      w.extractLsb' 3 2 = rclassCode (rclass s.rxv s.rxb) ∧
      w.getLsbD 5 = s.rxv ∧ w.extractLsb' 6 2 = 0#2 ∧
      w.getLsbD 8 = s.fIll ∧ w.getLsbD 9 = s.fLen ∧ w.getLsbD 10 = s.fOvf ∧ w.extractLsb' 11 21 = 0#21) ∧
    decode (packTxn true 0x0#4 data) = .op .init ∧
    (∃ w : Word, decode (packTxn false 0x8#4 data) = .op .rdXbyte ∧
      exec .rdXbyte s = .next { s with returned := s.returned ++ [w] } ∧
      w.extractLsb' 0 8 = s.exp ∧ w.extractLsb' 8 8 = s.rxb ∧ w.extractLsb' 16 16 = 0#16) ∧
    decode (packTxn true 0x8#4 data) = .op (.xchCmd (data.extractLsb' 0 8))

/-- 42_exchange R141, R142: which bytes are target error codes, and the code of the class of a held byte. -/
def Obligations.ByteClasses : Prop :=
  ∀ (v : Bool) (b : Byte),
    (isTerr b = true ↔ (0xE1 ≤ b.toNat ∧ b.toNat ≤ 0xEA) ∨ b.toNat = 0xEE) ∧
    (rclassCode (rclass v b)).toNat =
      if v = false then 0
      else if b.toNat = 0xAA then 1
      else if (0xE1 ≤ b.toNat ∧ b.toNat ≤ 0xEA) ∨ b.toNat = 0xEE then 2
      else 3

/-- 20_memory R62, R56: a read takes the oracle's next answer, whichever it is, and consumes it. -/
def Obligations.ReadTakesTheOracleAnswer : Prop :=
  ∀ (s : State) (a : Option Byte) (rest : List (Option Byte)), s.answers = a :: rest →
    (∀ es, s.answerAfter es = a) ∧
    ∃ t, exec .rxOne s = .next t ∧ t.answers = rest ∧ t.events = s.events ++ [.rx a] ∧ t.rxv = a.isSome ∧
      (∀ b, a = some b → t.rxb = b)

/-- 42_exchange R153: after a receiving operation that was not refused, `RES = 4` exactly when `RXV = 0`; `RES = 2` gives
`RXB = EXP`; `RES = 3` gives a byte different from `EXP`; `RES = 5` gives a byte. -/
def Obligations.OutcomeAgreesWithHeldByte : Prop :=
  ∀ (i : Instr) (s t : State), isReceiving i = true → refusal i s = none → exec i s = .next t →
    (t.res = .timeout ↔ t.rxv = false) ∧ (t.res = .matched → t.rxb = t.exp) ∧
    (t.res = .mismatch → t.rxv = true ∧ t.rxb ≠ t.exp) ∧ (t.res = .received → t.rxv = true)

/-! ### The checksum engine -/

/-- 40_checksum R108: one iteration is a linear-feedback shift register step with feedback `f = v[15]`, and absorbing a byte is
the byte XORed into `v[15:8]`, then eight such steps. -/
def Obligations.CrcBitIsFeedbackShift : Prop :=
  (∀ v : Crc,
    (crcBit v).getLsbD 0 = v.getLsbD 15 ∧
    (crcBit v).getLsbD 5 = (v.getLsbD 4 ^^ v.getLsbD 15) ∧
    (crcBit v).getLsbD 12 = (v.getLsbD 11 ^^ v.getLsbD 15) ∧
    (∀ i, 1 ≤ i → i ≤ 15 → i ≠ 5 → i ≠ 12 → (crcBit v).getLsbD i = v.getLsbD (i - 1))) ∧
  (∀ (c : Crc) (b : Byte), ∃ v : Crc,
    v.extractLsb' 8 8 = c.extractLsb' 8 8 ^^^ b ∧ v.extractLsb' 0 8 = c.extractLsb' 0 8 ∧
    crcByte c b = crcBit (crcBit (crcBit (crcBit (crcBit (crcBit (crcBit (crcBit v))))))))

/-- 40_checksum R105 (d): linearity over XOR. -/
def Obligations.CrcByteIsLinear : Prop :=
  (∀ (c1 c2 : Crc) (b1 b2 : Byte), crcByte (c1 ^^^ c2) (b1 ^^^ b2) = crcByte c1 b1 ^^^ crcByte c2 b2) ∧
  crcByte 0#16 0#8 = 0#16

/-- 40_checksum R105 (e): for a fixed byte a bijection, for a fixed running value injective in the byte. -/
def Obligations.CrcByteIsBijective : Prop :=
  (∀ b : Byte, Function.Bijective fun c : Crc => crcByte c b) ∧
  (∀ c : Crc, Function.Injective fun b : Byte => crcByte c b)

/-- 40_checksum R105 (e): any change confined to a single byte of the input changes the checksum. -/
def Obligations.CrcDetectsOneChangedByte : Prop :=
  ∀ (before after : List Byte) (x y : Byte) (seed : Crc), x ≠ y →
    crc16 (before ++ x :: after) seed ≠ crc16 (before ++ y :: after) seed

/-- 40_checksum R105 (b), (c), (f): incrementality, the empty sequence, and the residue of the checksum appended high byte
first. -/
def Obligations.CrcSequenceLaws : Prop :=
  (∀ (a b : List Byte) (s : Crc), crc16 (a ++ b) s = crc16 b (crc16 a s)) ∧
  (∀ s : Crc, crc16 [] s = s) ∧
  (∀ (bs : List Byte) (s : Crc),
    crc16 (bs ++ [(crc16 bs s).extractLsb' 8 8, (crc16 bs s).extractLsb' 0 8]) s = 0#16)

/-- 40_checksum R106: the host that issues `CRC.SEED seed`, `CRC.BYTE b` for each byte in order and `RD.CRC` gets back
`zext_32(crc16(bs, seed))`, for every sequence and every seed, from every state; with no `CRC.SEED` the seed is what `CRC` holds,
`0xFFFF` after reset and after `INIT`. -/
def Obligations.HostChecksumIsCrc16 : Prop :=
  (∀ (bs : List Byte) (seed : Crc) (rest : List Request) (s : State),
    s.requests = (.word (encode (.crcSeed seed)) :: bs.map fun b => .word (encode (.crcByte b))) ++
      .word (encode .rdCrc) :: rest →
    Sys2Proof.core.run (bs.length + 2) s =
      .next { s with
        requests := rest, crc := crc16 bs seed, returned := s.returned ++ [(crc16 bs seed).setWidth 32] }) ∧
  (∀ (bs : List Byte) (rest : List Request) (s : State),
    s.requests = (bs.map fun b => .word (encode (.crcByte b))) ++ .word (encode .rdCrc) :: rest →
    Sys2Proof.core.run (bs.length + 1) s =
      .next { s with
        requests := rest, crc := crc16 bs s.crc, returned := s.returned ++ [(crc16 bs s.crc).setWidth 32] }) ∧
  State.reset.crc = 0xFFFF#16 ∧
  (∀ s t : State, exec .init s = .next t → t.crc = 0xFFFF#16)

/-! ### The frame codec -/

/-- 41_frame_codec R133: the frame starts with 0x55, and the checksum recomputed over what stands between is the embedded one. -/
def Obligations.FrameCarriesItsChecksum : Prop :=
  ∀ (a : Word) (p : List Byte), 1 ≤ p.length → p.length ≤ 256 →
    (frameBytes a p)[0]? = some 0x55#8 ∧
    ∃ lo hi : Byte,
      (frameBytes a p)[(frameBytes a p).length - 2]? = some lo ∧
      (frameBytes a p)[(frameBytes a p).length - 1]? = some hi ∧
      (crc16 (((frameBytes a p).drop 1).take ((frameBytes a p).length - 3)) 0xFFFF#16).toNat = lo.toNat + 256 * hi.toNat

/-- 41_frame_codec R123: `frame_bytes` is injective. For the empty payload, where R123 does not define it, this is about the model's
total `frameBytes` (log entry 38, DESIGN CHOICE). -/
def Obligations.FrameIsInjective : Prop :=
  ∀ (a a' : Word) (p p' : List Byte), p.length ≤ 256 → p'.length ≤ 256 →
    frameBytes a p = frameBytes a' p' → a = a' ∧ p = p'

/-- 41_frame_codec R121, R128: the byte at every position of the frame, and its length `n + 9`. -/
def Obligations.FramePositionMap : Prop :=
  ∀ (a : Word) (p : List Byte), 1 ≤ p.length → p.length ≤ 256 →
    (frameBytes a p).length = p.length + 9 ∧ ∀ k, (frameBytes a p)[k]? = positionByte a p k

/-- 41_frame_codec R131: `FRM.TX` and `XCH.FRM` leave the segment as they found it, so issuing either of them again transmits
byte for byte the same frame, of `PCNT + 9` bytes. -/
def Obligations.RetryNeedsNoReload : Prop :=
  ∀ (i j : Instr) (s t : State), (i = .frmTx ∨ i = .xchFrm) → (j = .frmTx ∨ j = .xchFrm) →
    Inv s → s.pcnt ≠ 0#9 → exec i s = .next t →
    t.addr = s.addr ∧ t.pcnt = s.pcnt ∧ t.pbuf = s.pbuf ∧
    ∃ (es es' : List LinkEvent) (u : State), t.events = s.events ++ es ∧ exec j t = .next u ∧
      u.events = t.events ++ es' ∧ transmitted es' = transmitted es ∧ (transmitted es).length = s.pcnt.toNat + 9

/-- 42_exchange R152: `XCH.FRM` against `FRM.TX`, `TX.FLUSH`, `RX.ONE` in a row, and `XCH.CMD c` against `TX.RAW c`, `TX.FLUSH`,
`RX.ONE`, with the same Transport answers. -/
def Obligations.ExchangesAreCompositions : Prop :=
  (∀ s : State, Inv s → s.pcnt ≠ 0#9 →
    ∃ t1 t2 t3 u, exec .frmTx s = .next t1 ∧ exec .txFlush t1 = .next t2 ∧ exec .rxOne t2 = .next t3 ∧
      exec .xchFrm s = .next u ∧
      u.events = t3.events ∧ u.answers = t3.answers ∧ u.crc = t3.crc ∧ u.addr = t3.addr ∧ u.pcnt = t3.pcnt ∧
      u.pbuf = t3.pbuf ∧ u.rxb = t3.rxb ∧ u.rxv = t3.rxv ∧ u.exp = 0xAA#8 ∧
      (t3.res = .received → u.res = if u.rxb = 0xAA#8 then .matched else .mismatch) ∧
      (t3.res ≠ .received → u.res = t3.res)) ∧
  (∀ (s : State) (c : Byte),
    ∃ t1 t2 t3 u, exec (.txRaw c) s = .next t1 ∧ exec .txFlush t1 = .next t2 ∧ exec .rxOne t2 = .next t3 ∧
      exec (.xchCmd c) s = .next u ∧ u.events = t3.events ∧ u.answers = t3.answers)

/-! ### Invariants -/

/-- 10_state R39: the registers after reset and after `INIT`, no payload byte readable, and what the five register reads return
then. -/
def Obligations.ResetValues : Prop :=
  ∀ t : State, (t = State.reset ∨ ∃ s, exec .init s = .next t) →
    t.crc = 0xFFFF#16 ∧ t.addr = 0#32 ∧ t.pcnt = 0#9 ∧ (∀ i, t.pbufRead i = none) ∧ t.exp = 0x00#8 ∧ t.rxb = 0x00#8 ∧
    t.rxv = false ∧ t.res = .none ∧ t.fIll = false ∧ t.fLen = false ∧ t.fOvf = false ∧
    exec .rdStatus t = .next { t with returned := t.returned ++ [0x00000000#32] } ∧
    exec .rdCrc t = .next { t with returned := t.returned ++ [0x0000FFFF#32] } ∧
    exec .rdAddr t = .next { t with returned := t.returned ++ [0x00000000#32] } ∧
    exec .rdPcnt t = .next { t with returned := t.returned ++ [0x00000000#32] } ∧
    exec .rdXbyte t = .next { t with returned := t.returned ++ [0x00000000#32] }

/-- 10_state R39, R40: the invariant holds at reset. -/
def Obligations.ResetHasInvariant : Prop := Inv State.reset

/-- 10_state R40, 42_exchange R153: every step from every state that meets the invariant leads to one that meets it. -/
def Obligations.StepKeepsInvariant : Prop :=
  ∀ s t : State, Inv s → step s = .next t → Inv t

/-- The model's own canonical form of the payload memory (log entry 3, DESIGN CHOICE: indices strictly rising, which no rule of the
spec says): every step keeps it. -/
def Obligations.StepKeepsMemoryCanonical : Prop :=
  ∀ s t : State, Memory.wf s.pbuf = true → step s = .next t → Memory.wf t.pbuf = true

/-- 60_exceptions R230: from every state that meets the invariant every instruction completes, and every transaction,
presented as a word or as a bus access (30_encoding R79), assigned or reserved. -/
def Obligations.EveryOperationCompletes : Prop :=
  (∀ (i : Instr) (s : State), Inv s → ∃ t, exec i s = .next t) ∧
  (∀ (s : State) (r : Request) (rest : List Request) (w : Txn), Inv s → s.requests = r :: rest → r.txn? = some w →
    ∃ t, step s = .next t)

/-! ### Whole-machine rules and frames -/

/-- 10_state R42: an instruction leaves every item its row of the access summary does not mark `w` or `w*` as it was, the ten
columns in order, and what is marked `w*` as it was when it is not refused. `PBUF` is what of it is readable, the entries below
`PCNT`. Only link operations touch the link; no instruction touches the host's requests or agent, and only reads return words. -/
def Obligations.AccessSummaryHolds : Prop :=
  ∀ (i : Instr) (s t : State), exec i s = .next t →
    (writesCrc i = false → t.crc = s.crc) ∧ (writesAddr i = false → t.addr = s.addr) ∧
    (writesPcnt i = false → t.pcnt = s.pcnt) ∧
    (writesPbuf i = false → ∀ a, a < t.pcnt.toNat → t.pbufRead a = s.pbufRead a) ∧
    (writesExp i = false → t.exp = s.exp) ∧
    (writesHeld i = false → t.rxb = s.rxb ∧ t.rxv = s.rxv) ∧ (writesRes i = false → t.res = s.res) ∧
    (writesFIll i = false → t.fIll = s.fIll) ∧ (writesFLen i = false → t.fLen = s.fLen) ∧
    (writesFOvf i = false → t.fOvf = s.fOvf) ∧
    ((∃ b, i = .frmPush b) → refusal i s = none → t.res = s.res ∧ t.fOvf = s.fOvf) ∧
    ((i = .frmTx ∨ i = .xchFrm) → refusal i s = none → t.fLen = s.fLen) ∧
    (isLinkOp i = false → SameLink s t) ∧
    t.requests = s.requests ∧ t.agent = s.agent ∧ (i.isWrite = true → t.returned = s.returned)

/-- 10_state R24, R42; 20_memory R51: the frame on the payload memory. `FRM.PUSH` stores to the byte at index `PCNT` when that is
below 256 and to none otherwise; `INIT` and `FRM.CLR` leave no byte readable; every other instruction stores to no byte. -/
def Obligations.PayloadBytesFrame : Prop :=
  ∀ (i : Instr) (s t : State), exec i s = .next t →
    (∀ b, i = .frmPush b → ∀ a, ¬(s.pcnt.toNat < 256 ∧ a = s.pcnt.toNat) → t.pbufRead a = s.pbufRead a) ∧
    ((i = .init ∨ i = .frmClr) → ∀ a, t.pbufRead a = none) ∧
    (writesPcnt i = false → ∀ a, t.pbufRead a = s.pbufRead a)

/-- 10_state R29, 43_system R170: `INIT` is the only operation that clears a sticky flag and the only one that writes
`RES = 0`: a step that runs no `INIT` keeps every set flag set and leaves `RES` other than NONE if it was. -/
def Obligations.OnlyInitClears : Prop :=
  ∀ s t : State, step s = .next t → (∀ s', fetch s ≠ .txn (.op .init) s') →
    (s.fIll = true → t.fIll = true) ∧ (s.fLen = true → t.fLen = true) ∧ (s.fOvf = true → t.fOvf = true) ∧
    (s.res ≠ .none → t.res ≠ .none)

/-- 60_exceptions R231, R236: the complete list of refusals of instructions, and what a refusal does: the flag and `RES = 6`,
nothing else; an instruction that is not refused raises no flag. -/
def Obligations.RefusalsAreExact : Prop :=
  ∀ (i : Instr) (s : State),
    (∀ f, refusal i s = some f →
      exec i s = .next { s with
        res := .refused, fIll := s.fIll || f == .ill, fLen := s.fLen || f == .len, fOvf := s.fOvf || f == .ovf }) ∧
    (∀ t, refusal i s = none → i ≠ .init → exec i s = .next t →
      t.fIll = s.fIll ∧ t.fLen = s.fLen ∧ t.fOvf = s.fOvf ∧ (t.res = .refused → s.res = .refused))

/-- 20_memory R60, R66: a step only appends to the event history; what it records is never dropped, reordered or changed. That
the returned words only grow too is the model's own way to hold what 70_reset_and_hazards R280 makes observable (log entry 7,
DESIGN CHOICE). -/
def Obligations.HistoryOnlyGrows : Prop :=
  ∀ s t : State, step s = .next t → s.events <+: t.events ∧ s.returned <+: t.returned

/-- 42_exchange R150, 20_memory R61: a receiving operation that is not refused makes exactly one `LinkRead1`, consuming one
answer, every other operation none; and both exchanges flush what they wrote before they read. -/
def Obligations.OneReadPerReceivingOperation : Prop :=
  ∀ (i : Instr) (s t : State), exec i s = .next t →
    ∃ es, t.events = s.events ++ es ∧
      reads es = (if isReceiving i = true ∧ refusal i s = none then 1 else 0) ∧
      t.answers = s.answers.drop (reads es) ∧
      (i ≠ .rxOne → readsFlushed true es = true)

/-- 20_memory R56: a read transaction changes no state of the block and issues no link event, and read again it returns the same
word. -/
def Obligations.ReadsAreFreeOfSideEffects : Prop :=
  ∀ (i : Instr) (s : State), i.isWrite = false →
    ∃ (t : State) (w : Word), exec i s = .next t ∧ SameBlock s t ∧ SameLink s t ∧
      t.requests = s.requests ∧ t.agent = s.agent ∧ t.returned = s.returned ++ [w] ∧
      exec i t = .next { t with returned := t.returned ++ [w] }

/-- 20_memory R56: the four idempotent writes. -/
def Obligations.FourWritesAreIdempotent : Prop :=
  ∀ (i : Instr) (s : State), (i = .init ∨ i = .frmClr ∨ (∃ v, i = .frmAddr v) ∨ ∃ v, i = .crcSeed v) →
    ∃ t, exec i s = .next t ∧ exec i t = .next t

/-! ### Host-side sequences (44_host_sequences) -/

/-- 44_host_sequences R195, R196: the expected count by the selector's bits, at most 12, and the target code's two nibbles. The
board list and the target list are those of 44_host_sequences R194, and the expected count is the number of their pairs. -/
def Obligations.TargetAddressBook : Prop :=
  (∀ sel : Byte,
    (∀ j, j < 3 → (j + 1 ∈ boardList sel ↔ sel.getLsbD (4 + j) = true)) ∧ (∀ b ∈ boardList sel, 1 ≤ b ∧ b ≤ 3) ∧
    (∀ k, k < 4 → (k + 1 ∈ targetList sel ↔ sel.getLsbD k = true)) ∧ (∀ t ∈ targetList sel, 1 ≤ t ∧ t ≤ 4) ∧
    expectedCount sel = (targetList sel).length * (boardList sel).length) ∧
  (∀ sel : Byte, expectedCount sel ≤ 12 ∧
    expectedCount sel = ((List.range 4).countP fun k => sel.getLsbD k) * ((List.range 3).countP fun j => sel.getLsbD (4 + j))) ∧
  (∀ code : Byte, codeBoard code ≤ 3 ∧ codeTarget code ≤ 4 ∧
    (∀ j, j < 3 → (codeBoard code = j + 1 ↔ code.toNat / 16 = 2 ^ j)) ∧
    (∀ k, k < 4 → (codeTarget code = k + 1 ↔ code.toNat % 16 = 2 ^ k)))

/-- 44_host_sequences R191, property 4 of 95_test_vectors A4: a transport that times out `k ≤ 4` times and then echoes the
command: the handshake succeeds with exactly `k + 1` attempts. That such a success reports no raw byte is the model's choice (log
entry 36), as are the agent's moves as steps (15), the `INIT` first (24) and the phase Idle (35). -/
def Obligations.HandshakeSucceedsWithinFive : Prop :=
  ∀ (s : State) (cmd : Byte) (k : Nat) (rest : List (Option Byte)), k ≤ 4 →
    s.requests = [] → s.agent.point = .start (.command cmd) →
    s.answers = List.replicate k none ++ some cmd :: rest →
    ∃ t : State, Sys2Proof.core.run (4 * k + 6) s = .next t ∧ Ended t .success .idle [] ∧ t.answers = rest ∧
      t.events = s.events ++ attempts cmd (List.replicate k none ++ [some cmd])

/-- 44_host_sequences R191, property 4: after five timeouts the handshake fails fatally and performs no sixth attempt; a wrong
byte is fatal at once, on any attempt. The model's choices: the agent's moves as steps and the `INIT` first (log entries 15, 24),
the phase Idle of a handshake run on its own (log entry 35), and that timeouts report no raw byte (log entry 36). -/
def Obligations.HandshakeFailsFatally : Prop :=
  (∀ (s : State) (cmd : Byte) (rest : List (Option Byte)),
    s.requests = [] → s.agent.point = .start (.command cmd) → s.answers = List.replicate 5 none ++ rest →
    ∃ t : State, Sys2Proof.core.run 22 s = .next t ∧ Ended t (.fatal .transportTimeout (some cmd)) .idle [] ∧
      t.answers = rest ∧ t.events = s.events ++ attempts cmd (List.replicate 5 none) ∧ step t = .next t) ∧
  (∀ (s : State) (cmd b : Byte) (k : Nat) (rest : List (Option Byte)), k ≤ 4 → b ≠ cmd →
    s.requests = [] → s.agent.point = .start (.command cmd) →
    s.answers = List.replicate k none ++ some b :: rest →
    ∃ t : State, Sys2Proof.core.run (4 * k + 6) s = .next t ∧ Ended t (.fatal .protocolDesync (some cmd)) .idle [b] ∧
      t.answers = rest ∧ t.events = s.events ++ attempts cmd (List.replicate k none ++ [some b]) ∧ step t = .next t)

/-- 44_host_sequences R191: no handshake stands after five timeouts, an invariant of every step. -/
def Obligations.AttemptsStayBelowFive : Prop :=
  ∀ s t : State, (∀ cmd n k, s.agent.point = .command cmd n k → n < 5) → step s = .next t →
    ∀ cmd n k, t.agent.point = .command cmd n k → n < 5

/-- 44_host_sequences R192: the transfer advances past a segment only when its frame was answered by MATCH, and then past exactly
that one; the segments still to send change in no other step. -/
def Obligations.SegmentsAdvanceOnlyOnMatch : Prop :=
  ∀ s t : State, step s = .next t →
    t.agent.segments = s.agent.segments ∨
    (t.agent.segments = s.agent.segments.tail ∧ s.requests = [] ∧
      ∃ k st x, s.agent.point = .frame k ∧ s.lastWords = some (st, x) ∧ statusRes st = resCode .matched)

/-- 44_host_sequences R192, R208: on a timeout, a recognised error code or any other byte the same segment is sent again: the host
issues `XCH.FRM` and its two reads, with nothing reloaded; unless the caller's cancellation token is set, which ends the run. The
token as a list of readings (log entry 22), and that a cancelled run reports no raw byte, even where one is held (log entry 36), are
the model's choices. -/
def Obligations.TransferRetriesSameSegment : Prop :=
  ∀ (s : State) (k : AfterTransfer) (st x : Word),
    s.requests = [] → s.agent.point = .frame k → s.lastWords = some (st, x) →
    (statusRes st = resCode .timeout ∨ statusRes st = resCode .mismatch) →
    ∃ t, step s = .next t ∧ t.agent.segments = s.agent.segments ∧ GoesOn s t [.xchFrm, .rdStatus, .rdXbyte] (.frame k)

/-- 44_host_sequences R204: in a session the host issues the flash command only after the final acknowledgement, or again after an
attempt of it whose `STATUS` says neither MATCH nor MISMATCH, which is a timeout (44_host_sequences R191). -/
def Obligations.FlashCommandOnlyAfterFinalAck : Prop :=
  ∀ s t : State, s.requests = [] → step s = .next t →
    .word (encode (.xchCmd Config.cmdFlashImage)) ∈ t.requests →
    s.agent.point = .start (.command Config.cmdFlashImage) ∨
    (∃ n k st x, s.agent.point = .command Config.cmdFlashImage n k ∧ s.lastWords = some (st, x) ∧
      statusRes st ≠ resCode .matched ∧ statusRes st ≠ resCode .mismatch) ∨
    (∃ st x, s.agent.point = .finalAck .flash ∧ s.lastWords = some (st, x) ∧ statusRes st = resCode .received ∧
      xbyteRxb x = s.agent.finalAck)

/-- 44_host_sequences R203, R209: a requested baud outside the supported set is a ValidationError, and nothing is sent. That the
requested baud is the Session's one field `agent.baud` is the model's choice (log entry 34), so is that a local rejection reports
no raw byte (log entry 36), and that the check precedes the handshake is the reading R203 takes (log entry 21). -/
def Obligations.UnsupportedBaudIsRejected : Prop :=
  ∀ (s : State) (st x : Word),
    s.requests = [] → s.agent.point = .selection → s.lastWords = some (st, x) →
    statusRes st = resCode .received → statusRcls st = rclassCode .ack →
    s.agent.baud ∉ [9600, 19200, 38400, 57600, 115200, 230400, 460800, 921600] →
    ∃ t, step s = .next t ∧ Ended t (.fatal .validationError none) .baudChange []

/-- 44_host_sequences R198, R199: every case of the aggregator's two reads. Where a target code is awaited: a timeout reads
again; `FIN` ends the collection, with the expected count on to what follows, with another a ValidationError; any other byte is
a target code, and its outcome byte is read. Where an outcome byte is awaited: `Acked` is appended with its decoded board and
target; `NotAcked` and `NotConnected` are logged and not appended; a timeout and any other byte abort. That the iterations read
the cancellation token is the model's choice (log entry 22), that `0xAA` and `0xEE` are the two constants the spec's decision
(log entry 18), that an abort of the connectivity check is a ProtocolDesync the model's (log entry 20). Which raw bytes a report
holds is the model's choice too (log entry 36): the code, and the byte after it if one came, for an abort, the held byte for a
wrong count, none for a cancellation or a success. An outcome byte that is a recognised error code is logged with its description
before the run ends (60_exceptions R233). -/
def Obligations.AggregatorCollects : Prop :=
  ∀ (s : State) (k : AfterAggregate) (code : Byte) (st x : Word), s.requests = [] → s.lastWords = some (st, x) →
    (s.agent.point = .targetCode k →
      (statusRes st = resCode .timeout →
        ∃ t, step s = .next t ∧ t.agent.collected = s.agent.collected ∧ t.agent.log = s.agent.log ∧
          GoesOn s t [.rxOne, .rdStatus, .rdXbyte] (.targetCode k)) ∧
      (statusRes st = resCode .received → xbyteRxb x ≠ 0xAC#8 →
        ∃ t, step s = .next t ∧ t.agent.collected = s.agent.collected ∧ t.agent.log = s.agent.log ∧
          t.requests = issued [.rxOne, .rdStatus, .rdXbyte] ∧ t.agent.point = .targetOutcome (xbyteRxb x) k) ∧
      (statusRes st = resCode .received → xbyteRxb x = 0xAC#8 →
        s.agent.collected.length ≠ expectedCount s.agent.selector →
        ∃ t, step s = .next t ∧ Ended t (.fatal .validationError none) s.agent.phase (rawBytes st x)) ∧
      (statusRes st = resCode .received → xbyteRxb x = 0xAC#8 →
        s.agent.collected.length = expectedCount s.agent.selector →
        ∃ t, step s = .next t ∧ t.agent.collected = s.agent.collected ∧
          (k = .finish → Ended t .success s.agent.phase []) ∧
          (k = .receive → t.agent.phase = .receiveRequested ∧
            t.requests = issued [.xchCmd 0x14#8, .rdStatus, .rdXbyte] ∧
            t.agent.point = .command 0x14#8 0 .transfer))) ∧
    (s.agent.point = .targetOutcome code k →
      (statusRes st = resCode .timeout →
        ∃ t, step s = .next t ∧ t.agent.collected = s.agent.collected ∧
          Ended t (.fatal (if k = .receive then .validationError else .protocolDesync) none) s.agent.phase [code]) ∧
      (statusRes st = resCode .received → xbyteRxb x = 0xAA#8 →
        ∃ t e, step s = .next t ∧ t.agent.log = s.agent.log ∧
          t.agent.collected = s.agent.collected ++ [⟨codeBoard code, codeTarget code, .acked, e⟩] ∧
          GoesOn s t [.rxOne, .rdStatus, .rdXbyte] (.targetCode k)) ∧
      (statusRes st = resCode .received → xbyteRxb x = 0xEE#8 →
        ∃ t, step s = .next t ∧ t.agent.collected = s.agent.collected ∧
          t.agent.log = s.agent.log ++ [.response .notAcked (codeBoard code) (codeTarget code)] ∧
          GoesOn s t [.rxOne, .rdStatus, .rdXbyte] (.targetCode k)) ∧
      (statusRes st = resCode .received → xbyteRxb x = 0x00#8 →
        ∃ t, step s = .next t ∧ t.agent.collected = s.agent.collected ∧
          t.agent.log = s.agent.log ++ [.response .notConnected (codeBoard code) (codeTarget code)] ∧
          GoesOn s t [.rxOne, .rdStatus, .rdXbyte] (.targetCode k)) ∧
      (statusRes st = resCode .received → xbyteRxb x ≠ 0xAA#8 → xbyteRxb x ≠ 0xEE#8 → xbyteRxb x ≠ 0x00#8 →
        ∃ t, step s = .next t ∧ t.agent.collected = s.agent.collected ∧
          t.agent.log = s.agent.log ++
            (if statusRcls st = rclassCode .terr then [.errorCode (xbyteRxb x) (descriptionOf (xbyteRxb x))] else []) ∧
          Ended t (.fatal (if k = .receive then .validationError else .protocolDesync) none) s.agent.phase
            [code, xbyteRxb x]))
end

