-- ==== Sys2Proof/Laws/State.lean ====
section
/-! SUPPORT. One lemma per field and per named update of the state, each true by rfl, so that no proof unfolds a record update. -/

namespace Sys2Proof.Laws

open Sys2Proof.Machine

variable (s : State)

/-! ### linkWrite -/

@[simp] theorem linkWrite_crc (b : Byte) : (s.linkWrite b).crc = s.crc := rfl
@[simp] theorem linkWrite_addr (b : Byte) : (s.linkWrite b).addr = s.addr := rfl
@[simp] theorem linkWrite_pcnt (b : Byte) : (s.linkWrite b).pcnt = s.pcnt := rfl
@[simp] theorem linkWrite_pbuf (b : Byte) : (s.linkWrite b).pbuf = s.pbuf := rfl
@[simp] theorem linkWrite_exp (b : Byte) : (s.linkWrite b).exp = s.exp := rfl
@[simp] theorem linkWrite_rxb (b : Byte) : (s.linkWrite b).rxb = s.rxb := rfl
@[simp] theorem linkWrite_rxv (b : Byte) : (s.linkWrite b).rxv = s.rxv := rfl
@[simp] theorem linkWrite_res (b : Byte) : (s.linkWrite b).res = s.res := rfl
@[simp] theorem linkWrite_fIll (b : Byte) : (s.linkWrite b).fIll = s.fIll := rfl
@[simp] theorem linkWrite_fLen (b : Byte) : (s.linkWrite b).fLen = s.fLen := rfl
@[simp] theorem linkWrite_fOvf (b : Byte) : (s.linkWrite b).fOvf = s.fOvf := rfl
@[simp] theorem linkWrite_answers (b : Byte) : (s.linkWrite b).answers = s.answers := rfl
@[simp] theorem linkWrite_events (b : Byte) : (s.linkWrite b).events = s.events ++ [.tx b] := rfl
@[simp] theorem linkWrite_requests (b : Byte) : (s.linkWrite b).requests = s.requests := rfl
@[simp] theorem linkWrite_returned (b : Byte) : (s.linkWrite b).returned = s.returned := rfl
@[simp] theorem linkWrite_agent (b : Byte) : (s.linkWrite b).agent = s.agent := rfl

/-! ### linkFlush -/

@[simp] theorem linkFlush_crc : (s.linkFlush).crc = s.crc := rfl
@[simp] theorem linkFlush_addr : (s.linkFlush).addr = s.addr := rfl
@[simp] theorem linkFlush_pcnt : (s.linkFlush).pcnt = s.pcnt := rfl
@[simp] theorem linkFlush_pbuf : (s.linkFlush).pbuf = s.pbuf := rfl
@[simp] theorem linkFlush_exp : (s.linkFlush).exp = s.exp := rfl
@[simp] theorem linkFlush_rxb : (s.linkFlush).rxb = s.rxb := rfl
@[simp] theorem linkFlush_rxv : (s.linkFlush).rxv = s.rxv := rfl
@[simp] theorem linkFlush_res : (s.linkFlush).res = s.res := rfl
@[simp] theorem linkFlush_fIll : (s.linkFlush).fIll = s.fIll := rfl
@[simp] theorem linkFlush_fLen : (s.linkFlush).fLen = s.fLen := rfl
@[simp] theorem linkFlush_fOvf : (s.linkFlush).fOvf = s.fOvf := rfl
@[simp] theorem linkFlush_answers : (s.linkFlush).answers = s.answers := rfl
@[simp] theorem linkFlush_events : (s.linkFlush).events = s.events ++ [.flush] := rfl
@[simp] theorem linkFlush_requests : (s.linkFlush).requests = s.requests := rfl
@[simp] theorem linkFlush_returned : (s.linkFlush).returned = s.returned := rfl
@[simp] theorem linkFlush_agent : (s.linkFlush).agent = s.agent := rfl

/-! ### linkRead -/

@[simp] theorem linkRead_crc : (s.linkRead).crc = s.crc := rfl
@[simp] theorem linkRead_addr : (s.linkRead).addr = s.addr := rfl
@[simp] theorem linkRead_pcnt : (s.linkRead).pcnt = s.pcnt := rfl
@[simp] theorem linkRead_pbuf : (s.linkRead).pbuf = s.pbuf := rfl
@[simp] theorem linkRead_exp : (s.linkRead).exp = s.exp := rfl
@[simp] theorem linkRead_rxb : (s.linkRead).rxb = s.rxb := rfl
@[simp] theorem linkRead_rxv : (s.linkRead).rxv = s.rxv := rfl
@[simp] theorem linkRead_res : (s.linkRead).res = s.res := rfl
@[simp] theorem linkRead_fIll : (s.linkRead).fIll = s.fIll := rfl
@[simp] theorem linkRead_fLen : (s.linkRead).fLen = s.fLen := rfl
@[simp] theorem linkRead_fOvf : (s.linkRead).fOvf = s.fOvf := rfl
@[simp] theorem linkRead_answers : (s.linkRead).answers = s.answers.tail := rfl
@[simp] theorem linkRead_events : (s.linkRead).events = s.events ++ [.rx s.linkAnswer] := rfl
@[simp] theorem linkRead_requests : (s.linkRead).requests = s.requests := rfl
@[simp] theorem linkRead_returned : (s.linkRead).returned = s.returned := rfl
@[simp] theorem linkRead_agent : (s.linkRead).agent = s.agent := rfl

/-! ### clearHeld -/

@[simp] theorem clearHeld_crc : (s.clearHeld).crc = s.crc := rfl
@[simp] theorem clearHeld_addr : (s.clearHeld).addr = s.addr := rfl
@[simp] theorem clearHeld_pcnt : (s.clearHeld).pcnt = s.pcnt := rfl
@[simp] theorem clearHeld_pbuf : (s.clearHeld).pbuf = s.pbuf := rfl
@[simp] theorem clearHeld_exp : (s.clearHeld).exp = s.exp := rfl
@[simp] theorem clearHeld_rxb : (s.clearHeld).rxb = 0x00#8 := rfl
@[simp] theorem clearHeld_rxv : (s.clearHeld).rxv = false := rfl
@[simp] theorem clearHeld_res : (s.clearHeld).res = s.res := rfl
@[simp] theorem clearHeld_fIll : (s.clearHeld).fIll = s.fIll := rfl
@[simp] theorem clearHeld_fLen : (s.clearHeld).fLen = s.fLen := rfl
@[simp] theorem clearHeld_fOvf : (s.clearHeld).fOvf = s.fOvf := rfl
@[simp] theorem clearHeld_answers : (s.clearHeld).answers = s.answers := rfl
@[simp] theorem clearHeld_events : (s.clearHeld).events = s.events := rfl
@[simp] theorem clearHeld_requests : (s.clearHeld).requests = s.requests := rfl
@[simp] theorem clearHeld_returned : (s.clearHeld).returned = s.returned := rfl
@[simp] theorem clearHeld_agent : (s.clearHeld).agent = s.agent := rfl

/-! ### setRes -/

@[simp] theorem setRes_crc (r : Res) : (s.setRes r).crc = s.crc := rfl
@[simp] theorem setRes_addr (r : Res) : (s.setRes r).addr = s.addr := rfl
@[simp] theorem setRes_pcnt (r : Res) : (s.setRes r).pcnt = s.pcnt := rfl
@[simp] theorem setRes_pbuf (r : Res) : (s.setRes r).pbuf = s.pbuf := rfl
@[simp] theorem setRes_exp (r : Res) : (s.setRes r).exp = s.exp := rfl
@[simp] theorem setRes_rxb (r : Res) : (s.setRes r).rxb = s.rxb := rfl
@[simp] theorem setRes_rxv (r : Res) : (s.setRes r).rxv = s.rxv := rfl
@[simp] theorem setRes_res (r : Res) : (s.setRes r).res = r := rfl
@[simp] theorem setRes_fIll (r : Res) : (s.setRes r).fIll = s.fIll := rfl
@[simp] theorem setRes_fLen (r : Res) : (s.setRes r).fLen = s.fLen := rfl
@[simp] theorem setRes_fOvf (r : Res) : (s.setRes r).fOvf = s.fOvf := rfl
@[simp] theorem setRes_answers (r : Res) : (s.setRes r).answers = s.answers := rfl
@[simp] theorem setRes_events (r : Res) : (s.setRes r).events = s.events := rfl
@[simp] theorem setRes_requests (r : Res) : (s.setRes r).requests = s.requests := rfl
@[simp] theorem setRes_returned (r : Res) : (s.setRes r).returned = s.returned := rfl
@[simp] theorem setRes_agent (r : Res) : (s.setRes r).agent = s.agent := rfl

/-! ### absorb -/

@[simp] theorem absorb_crc (b : Byte) : (s.absorb b).crc = Sys2Proof.Machine.crcByte s.crc b := rfl
@[simp] theorem absorb_addr (b : Byte) : (s.absorb b).addr = s.addr := rfl
@[simp] theorem absorb_pcnt (b : Byte) : (s.absorb b).pcnt = s.pcnt := rfl
@[simp] theorem absorb_pbuf (b : Byte) : (s.absorb b).pbuf = s.pbuf := rfl
@[simp] theorem absorb_exp (b : Byte) : (s.absorb b).exp = s.exp := rfl
@[simp] theorem absorb_rxb (b : Byte) : (s.absorb b).rxb = s.rxb := rfl
@[simp] theorem absorb_rxv (b : Byte) : (s.absorb b).rxv = s.rxv := rfl
@[simp] theorem absorb_res (b : Byte) : (s.absorb b).res = s.res := rfl
@[simp] theorem absorb_fIll (b : Byte) : (s.absorb b).fIll = s.fIll := rfl
@[simp] theorem absorb_fLen (b : Byte) : (s.absorb b).fLen = s.fLen := rfl
@[simp] theorem absorb_fOvf (b : Byte) : (s.absorb b).fOvf = s.fOvf := rfl
@[simp] theorem absorb_answers (b : Byte) : (s.absorb b).answers = s.answers := rfl
@[simp] theorem absorb_events (b : Byte) : (s.absorb b).events = s.events := rfl
@[simp] theorem absorb_requests (b : Byte) : (s.absorb b).requests = s.requests := rfl
@[simp] theorem absorb_returned (b : Byte) : (s.absorb b).returned = s.returned := rfl
@[simp] theorem absorb_agent (b : Byte) : (s.absorb b).agent = s.agent := rfl

/-! ### returnWord -/

@[simp] theorem returnWord_crc (w : Word) : (s.returnWord w).crc = s.crc := rfl
@[simp] theorem returnWord_addr (w : Word) : (s.returnWord w).addr = s.addr := rfl
@[simp] theorem returnWord_pcnt (w : Word) : (s.returnWord w).pcnt = s.pcnt := rfl
@[simp] theorem returnWord_pbuf (w : Word) : (s.returnWord w).pbuf = s.pbuf := rfl
@[simp] theorem returnWord_exp (w : Word) : (s.returnWord w).exp = s.exp := rfl
@[simp] theorem returnWord_rxb (w : Word) : (s.returnWord w).rxb = s.rxb := rfl
@[simp] theorem returnWord_rxv (w : Word) : (s.returnWord w).rxv = s.rxv := rfl
@[simp] theorem returnWord_res (w : Word) : (s.returnWord w).res = s.res := rfl
@[simp] theorem returnWord_fIll (w : Word) : (s.returnWord w).fIll = s.fIll := rfl
@[simp] theorem returnWord_fLen (w : Word) : (s.returnWord w).fLen = s.fLen := rfl
@[simp] theorem returnWord_fOvf (w : Word) : (s.returnWord w).fOvf = s.fOvf := rfl
@[simp] theorem returnWord_answers (w : Word) : (s.returnWord w).answers = s.answers := rfl
@[simp] theorem returnWord_events (w : Word) : (s.returnWord w).events = s.events := rfl
@[simp] theorem returnWord_requests (w : Word) : (s.returnWord w).requests = s.requests := rfl
@[simp] theorem returnWord_returned (w : Word) : (s.returnWord w).returned = s.returned ++ [w] := rfl
@[simp] theorem returnWord_agent (w : Word) : (s.returnWord w).agent = s.agent := rfl

/-! ### resetBlock -/

@[simp] theorem resetBlock_crc : (s.resetBlock).crc = Config.crcSeed := rfl
@[simp] theorem resetBlock_addr : (s.resetBlock).addr = 0#32 := rfl
@[simp] theorem resetBlock_pcnt : (s.resetBlock).pcnt = 0#9 := rfl
@[simp] theorem resetBlock_pbuf : (s.resetBlock).pbuf = [] := rfl
@[simp] theorem resetBlock_exp : (s.resetBlock).exp = 0x00#8 := rfl
@[simp] theorem resetBlock_rxb : (s.resetBlock).rxb = 0x00#8 := rfl
@[simp] theorem resetBlock_rxv : (s.resetBlock).rxv = false := rfl
@[simp] theorem resetBlock_res : (s.resetBlock).res = .none := rfl
@[simp] theorem resetBlock_fIll : (s.resetBlock).fIll = false := rfl
@[simp] theorem resetBlock_fLen : (s.resetBlock).fLen = false := rfl
@[simp] theorem resetBlock_fOvf : (s.resetBlock).fOvf = false := rfl
@[simp] theorem resetBlock_answers : (s.resetBlock).answers = s.answers := rfl
@[simp] theorem resetBlock_events : (s.resetBlock).events = s.events := rfl
@[simp] theorem resetBlock_requests : (s.resetBlock).requests = s.requests := rfl
@[simp] theorem resetBlock_returned : (s.resetBlock).returned = s.returned := rfl
@[simp] theorem resetBlock_agent : (s.resetBlock).agent = s.agent := rfl

/-! ### issue -/

@[simp] theorem issue_crc (is : List Instr) (p : Point) : (s.issue is p).crc = s.crc := rfl
@[simp] theorem issue_addr (is : List Instr) (p : Point) : (s.issue is p).addr = s.addr := rfl
@[simp] theorem issue_pcnt (is : List Instr) (p : Point) : (s.issue is p).pcnt = s.pcnt := rfl
@[simp] theorem issue_pbuf (is : List Instr) (p : Point) : (s.issue is p).pbuf = s.pbuf := rfl
@[simp] theorem issue_exp (is : List Instr) (p : Point) : (s.issue is p).exp = s.exp := rfl
@[simp] theorem issue_rxb (is : List Instr) (p : Point) : (s.issue is p).rxb = s.rxb := rfl
@[simp] theorem issue_rxv (is : List Instr) (p : Point) : (s.issue is p).rxv = s.rxv := rfl
@[simp] theorem issue_res (is : List Instr) (p : Point) : (s.issue is p).res = s.res := rfl
@[simp] theorem issue_fIll (is : List Instr) (p : Point) : (s.issue is p).fIll = s.fIll := rfl
@[simp] theorem issue_fLen (is : List Instr) (p : Point) : (s.issue is p).fLen = s.fLen := rfl
@[simp] theorem issue_fOvf (is : List Instr) (p : Point) : (s.issue is p).fOvf = s.fOvf := rfl
@[simp] theorem issue_answers (is : List Instr) (p : Point) : (s.issue is p).answers = s.answers := rfl
@[simp] theorem issue_events (is : List Instr) (p : Point) : (s.issue is p).events = s.events := rfl
@[simp] theorem issue_requests (is : List Instr) (p : Point) : (s.issue is p).requests = s.requests ++ is.map (fun i => Request.word (encode i)) := rfl
@[simp] theorem issue_returned (is : List Instr) (p : Point) : (s.issue is p).returned = s.returned := rfl
@[simp] theorem issue_agent (is : List Instr) (p : Point) : (s.issue is p).agent = { s.agent with point := p } := rfl

/-! ### note -/

@[simp] theorem note_crc (e : LogEntry) : (s.note e).crc = s.crc := rfl
@[simp] theorem note_addr (e : LogEntry) : (s.note e).addr = s.addr := rfl
@[simp] theorem note_pcnt (e : LogEntry) : (s.note e).pcnt = s.pcnt := rfl
@[simp] theorem note_pbuf (e : LogEntry) : (s.note e).pbuf = s.pbuf := rfl
@[simp] theorem note_exp (e : LogEntry) : (s.note e).exp = s.exp := rfl
@[simp] theorem note_rxb (e : LogEntry) : (s.note e).rxb = s.rxb := rfl
@[simp] theorem note_rxv (e : LogEntry) : (s.note e).rxv = s.rxv := rfl
@[simp] theorem note_res (e : LogEntry) : (s.note e).res = s.res := rfl
@[simp] theorem note_fIll (e : LogEntry) : (s.note e).fIll = s.fIll := rfl
@[simp] theorem note_fLen (e : LogEntry) : (s.note e).fLen = s.fLen := rfl
@[simp] theorem note_fOvf (e : LogEntry) : (s.note e).fOvf = s.fOvf := rfl
@[simp] theorem note_answers (e : LogEntry) : (s.note e).answers = s.answers := rfl
@[simp] theorem note_events (e : LogEntry) : (s.note e).events = s.events := rfl
@[simp] theorem note_requests (e : LogEntry) : (s.note e).requests = s.requests := rfl
@[simp] theorem note_returned (e : LogEntry) : (s.note e).returned = s.returned := rfl
@[simp] theorem note_agent (e : LogEntry) : (s.note e).agent = { s.agent with log := s.agent.log ++ [e] } := rfl

/-! ### conclude -/

@[simp] theorem conclude_crc (e : Ending) (p : Phase) (raw : List Byte) (ks : List ErrorKind) : (s.conclude e p raw ks).crc = s.crc := rfl
@[simp] theorem conclude_addr (e : Ending) (p : Phase) (raw : List Byte) (ks : List ErrorKind) : (s.conclude e p raw ks).addr = s.addr := rfl
@[simp] theorem conclude_pcnt (e : Ending) (p : Phase) (raw : List Byte) (ks : List ErrorKind) : (s.conclude e p raw ks).pcnt = s.pcnt := rfl
@[simp] theorem conclude_pbuf (e : Ending) (p : Phase) (raw : List Byte) (ks : List ErrorKind) : (s.conclude e p raw ks).pbuf = s.pbuf := rfl
@[simp] theorem conclude_exp (e : Ending) (p : Phase) (raw : List Byte) (ks : List ErrorKind) : (s.conclude e p raw ks).exp = s.exp := rfl
@[simp] theorem conclude_rxb (e : Ending) (p : Phase) (raw : List Byte) (ks : List ErrorKind) : (s.conclude e p raw ks).rxb = s.rxb := rfl
@[simp] theorem conclude_rxv (e : Ending) (p : Phase) (raw : List Byte) (ks : List ErrorKind) : (s.conclude e p raw ks).rxv = s.rxv := rfl
@[simp] theorem conclude_res (e : Ending) (p : Phase) (raw : List Byte) (ks : List ErrorKind) : (s.conclude e p raw ks).res = s.res := rfl
@[simp] theorem conclude_fIll (e : Ending) (p : Phase) (raw : List Byte) (ks : List ErrorKind) : (s.conclude e p raw ks).fIll = s.fIll := rfl
@[simp] theorem conclude_fLen (e : Ending) (p : Phase) (raw : List Byte) (ks : List ErrorKind) : (s.conclude e p raw ks).fLen = s.fLen := rfl
@[simp] theorem conclude_fOvf (e : Ending) (p : Phase) (raw : List Byte) (ks : List ErrorKind) : (s.conclude e p raw ks).fOvf = s.fOvf := rfl
@[simp] theorem conclude_answers (e : Ending) (p : Phase) (raw : List Byte) (ks : List ErrorKind) : (s.conclude e p raw ks).answers = s.answers := rfl
@[simp] theorem conclude_events (e : Ending) (p : Phase) (raw : List Byte) (ks : List ErrorKind) : (s.conclude e p raw ks).events = s.events := rfl
@[simp] theorem conclude_requests (e : Ending) (p : Phase) (raw : List Byte) (ks : List ErrorKind) : (s.conclude e p raw ks).requests = s.requests := rfl
@[simp] theorem conclude_returned (e : Ending) (p : Phase) (raw : List Byte) (ks : List ErrorKind) : (s.conclude e p raw ks).returned = s.returned := rfl
@[simp] theorem conclude_agent (e : Ending) (p : Phase) (raw : List Byte) (ks : List ErrorKind) :
    (s.conclude e p raw ks).agent = { s.agent with
      point := .idle, phase := .idle, selector := 0#8, baud := 0, durations := []
      result := some ⟨e, ks, s.agent.phase, p, raw, s.phaseDurations⟩ } := rfl

/-! ### enterPhase, beginRun, collect: the agent and the host's side; that nothing else changes, `HostOnly` says -/

@[simp] theorem enterPhase_requests (p : Phase) : (s.enterPhase p).requests = s.requests := rfl
@[simp] theorem enterPhase_returned (p : Phase) : (s.enterPhase p).returned = s.returned := rfl
@[simp] theorem enterPhase_events (p : Phase) : (s.enterPhase p).events = s.events := rfl
@[simp] theorem enterPhase_answers (p : Phase) : (s.enterPhase p).answers = s.answers := rfl
@[simp] theorem enterPhase_agent (p : Phase) : (s.enterPhase p).agent = { s.agent with phase := p, durations := s.phaseDurations } := rfl

@[simp] theorem collect_requests (r : TargetResponse) : (s.collect r).requests = s.requests := rfl
@[simp] theorem collect_returned (r : TargetResponse) : (s.collect r).returned = s.returned := rfl
@[simp] theorem collect_events (r : TargetResponse) : (s.collect r).events = s.events := rfl
@[simp] theorem collect_answers (r : TargetResponse) : (s.collect r).answers = s.answers := rfl
@[simp] theorem collect_agent (r : TargetResponse) : (s.collect r).agent = { s.agent with collected := s.agent.collected ++ [r] } := rfl

@[simp] theorem beginRun_requests (sel : Byte) (baud : Nat) (p : Point) : (s.beginRun sel baud p).requests = s.requests ++ [.word (encode .init)] := rfl
@[simp] theorem beginRun_returned (sel : Byte) (baud : Nat) (p : Point) : (s.beginRun sel baud p).returned = s.returned := rfl
@[simp] theorem beginRun_events (sel : Byte) (baud : Nat) (p : Point) : (s.beginRun sel baud p).events = s.events := rfl
@[simp] theorem beginRun_answers (sel : Byte) (baud : Nat) (p : Point) : (s.beginRun sel baud p).answers = s.answers := rfl
@[simp] theorem beginRun_agent (sel : Byte) (baud : Nat) (p : Point) :
    (s.beginRun sel baud p).agent = { s.agent with
      point := p, phase := .idle, selector := sel, baud := baud, collected := [], durations := [], log := []
      result := none } := rfl

/-! ### noteTargetError -/

@[simp] theorem noteTargetError_crc (st x : Word) : (s.noteTargetError st x).crc = s.crc := rfl
@[simp] theorem noteTargetError_addr (st x : Word) : (s.noteTargetError st x).addr = s.addr := rfl
@[simp] theorem noteTargetError_pcnt (st x : Word) : (s.noteTargetError st x).pcnt = s.pcnt := rfl
@[simp] theorem noteTargetError_pbuf (st x : Word) : (s.noteTargetError st x).pbuf = s.pbuf := rfl
@[simp] theorem noteTargetError_exp (st x : Word) : (s.noteTargetError st x).exp = s.exp := rfl
@[simp] theorem noteTargetError_rxb (st x : Word) : (s.noteTargetError st x).rxb = s.rxb := rfl
@[simp] theorem noteTargetError_rxv (st x : Word) : (s.noteTargetError st x).rxv = s.rxv := rfl
@[simp] theorem noteTargetError_res (st x : Word) : (s.noteTargetError st x).res = s.res := rfl
@[simp] theorem noteTargetError_fIll (st x : Word) : (s.noteTargetError st x).fIll = s.fIll := rfl
@[simp] theorem noteTargetError_fLen (st x : Word) : (s.noteTargetError st x).fLen = s.fLen := rfl
@[simp] theorem noteTargetError_fOvf (st x : Word) : (s.noteTargetError st x).fOvf = s.fOvf := rfl
@[simp] theorem noteTargetError_answers (st x : Word) : (s.noteTargetError st x).answers = s.answers := rfl
@[simp] theorem noteTargetError_events (st x : Word) : (s.noteTargetError st x).events = s.events := rfl
@[simp] theorem noteTargetError_requests (st x : Word) : (s.noteTargetError st x).requests = s.requests := rfl
@[simp] theorem noteTargetError_returned (st x : Word) : (s.noteTargetError st x).returned = s.returned := rfl
@[simp] theorem noteTargetError_agent (st x : Word) :
    (s.noteTargetError st x).agent = { s.agent with
      log := s.agent.log ++
        if answerKind st = .targetError then [.errorCode (xbyteRxb x) (descriptionOf (xbyteRxb x))] else [] } := rfl

/-! ### hold, setFlag, refuse -/

@[simp] theorem hold_crc (a : Option Byte) : (s.hold a).crc = s.crc := by cases a <;> rfl
@[simp] theorem hold_addr (a : Option Byte) : (s.hold a).addr = s.addr := by cases a <;> rfl
@[simp] theorem hold_pcnt (a : Option Byte) : (s.hold a).pcnt = s.pcnt := by cases a <;> rfl
@[simp] theorem hold_pbuf (a : Option Byte) : (s.hold a).pbuf = s.pbuf := by cases a <;> rfl
@[simp] theorem hold_exp (a : Option Byte) : (s.hold a).exp = s.exp := by cases a <;> rfl
@[simp] theorem hold_res (a : Option Byte) : (s.hold a).res = s.res := by cases a <;> rfl
@[simp] theorem hold_fIll (a : Option Byte) : (s.hold a).fIll = s.fIll := by cases a <;> rfl
@[simp] theorem hold_fLen (a : Option Byte) : (s.hold a).fLen = s.fLen := by cases a <;> rfl
@[simp] theorem hold_fOvf (a : Option Byte) : (s.hold a).fOvf = s.fOvf := by cases a <;> rfl
@[simp] theorem hold_answers (a : Option Byte) : (s.hold a).answers = s.answers := by cases a <;> rfl
@[simp] theorem hold_events (a : Option Byte) : (s.hold a).events = s.events := by cases a <;> rfl
@[simp] theorem hold_requests (a : Option Byte) : (s.hold a).requests = s.requests := by cases a <;> rfl
@[simp] theorem hold_returned (a : Option Byte) : (s.hold a).returned = s.returned := by cases a <;> rfl
@[simp] theorem hold_agent (a : Option Byte) : (s.hold a).agent = s.agent := by cases a <;> rfl
@[simp] theorem hold_some_rxb (b : Byte) : (s.hold (some b)).rxb = b := rfl
@[simp] theorem hold_some_rxv (b : Byte) : (s.hold (some b)).rxv = true := rfl
@[simp] theorem hold_none : s.hold none = s := rfl

@[simp] theorem refuse_crc (g : RefusalFlag) : (s.refuse g).crc = s.crc := by cases g <;> rfl
@[simp] theorem refuse_addr (g : RefusalFlag) : (s.refuse g).addr = s.addr := by cases g <;> rfl
@[simp] theorem refuse_pcnt (g : RefusalFlag) : (s.refuse g).pcnt = s.pcnt := by cases g <;> rfl
@[simp] theorem refuse_pbuf (g : RefusalFlag) : (s.refuse g).pbuf = s.pbuf := by cases g <;> rfl
@[simp] theorem refuse_exp (g : RefusalFlag) : (s.refuse g).exp = s.exp := by cases g <;> rfl
@[simp] theorem refuse_rxb (g : RefusalFlag) : (s.refuse g).rxb = s.rxb := by cases g <;> rfl
@[simp] theorem refuse_rxv (g : RefusalFlag) : (s.refuse g).rxv = s.rxv := by cases g <;> rfl
@[simp] theorem refuse_res (g : RefusalFlag) : (s.refuse g).res = .refused := rfl
@[simp] theorem refuse_answers (g : RefusalFlag) : (s.refuse g).answers = s.answers := by cases g <;> rfl
@[simp] theorem refuse_events (g : RefusalFlag) : (s.refuse g).events = s.events := by cases g <;> rfl
@[simp] theorem refuse_requests (g : RefusalFlag) : (s.refuse g).requests = s.requests := by cases g <;> rfl
@[simp] theorem refuse_returned (g : RefusalFlag) : (s.refuse g).returned = s.returned := by cases g <;> rfl
@[simp] theorem refuse_agent (g : RefusalFlag) : (s.refuse g).agent = s.agent := by cases g <;> rfl

theorem refuse_ill : s.refuse .ill = { s with fIll := true, res := .refused } := rfl
theorem refuse_len : s.refuse .len = { s with fLen := true, res := .refused } := rfl
theorem refuse_ovf : s.refuse .ovf = { s with fOvf := true, res := .refused } := rfl

end Sys2Proof.Laws
end

