-- ==== Sys2Proof/Laws/Agent.lean ====
section
/-! SUPPORT. What a move of the host agent can change: requests appended, and the agent itself. -/

namespace Sys2Proof.Laws

open Sys2Proof.Machine

/-- `t` is `s` with requests appended and another agent, and nothing else changed. -/
def HostOnly (s t : State) : Prop := ∃ rs a, t = { s with requests := s.requests ++ rs, agent := a }

theorem HostOnly.refl (s : State) : HostOnly s s := ⟨[], s.agent, by simp⟩

theorem HostOnly.trans {s t u : State} : HostOnly s t → HostOnly t u → HostOnly s u := by
  rintro ⟨rs, a, rfl⟩ ⟨rs', a', rfl⟩
  exact ⟨rs ++ rs', a', by simp⟩

theorem hostOnly_issue (s : State) (is : List Instr) (p : Point) : HostOnly s (s.issue is p) :=
  ⟨_, _, rfl⟩

theorem hostOnly_agent (s : State) (a : Agent) : HostOnly s { s with agent := a } := ⟨[], a, by simp⟩

theorem hostOnly_issueCommand (s : State) (cmd : Byte) (n : Nat) (k : AfterCommand) :
    HostOnly s (s.issueCommand cmd n k) := hostOnly_issue ..

theorem hostOnly_issueRead (s : State) (p : Point) : HostOnly s (s.issueRead p) := hostOnly_issue ..

theorem hostOnly_note (s : State) (e : LogEntry) : HostOnly s (s.note e) := hostOnly_agent ..

theorem hostOnly_enterPhase (s : State) (p : Phase) : HostOnly s (s.enterPhase p) := hostOnly_agent ..

theorem hostOnly_conclude (s : State) (e : Ending) (p : Phase) (raw : List Byte) (ks : List ErrorKind) :
    HostOnly s (s.conclude e p raw ks) := hostOnly_agent ..

theorem hostOnly_fatal (s : State) (kind : ErrorKind) (raw : List Byte) (cmd : Option Byte)
    (ks : List ErrorKind) : HostOnly s (s.fatal kind raw cmd ks) := hostOnly_agent ..

theorem hostOnly_beginRun (s : State) (selector : Byte) (baud : Nat) (p : Point) :
    HostOnly s (s.beginRun selector baud p) :=
  (hostOnly_agent s _).trans (hostOnly_issue ..)

theorem hostOnly_noteError (s : State) (x : Word) : HostOnly s (s.noteError x) := hostOnly_agent ..

/-- An answer is a TargetError when a byte came and its class is TERR. -/
theorem answerKind_eq_targetError (st : Word) :
    answerKind st = .targetError ↔ statusRes st ≠ resCode .timeout ∧ statusRcls st = rclassCode .terr := by
  unfold answerKind
  split
  · simp [*]
  · split <;> simp [*]

/-- What logging a TargetError can do: log the code and its description if the answer is one, nothing otherwise. -/
theorem noteTargetError_cases (s : State) (st x : Word) :
    (answerKind st = .targetError ∧ s.noteTargetError st x = s.noteError x) ∨
    (answerKind st ≠ .targetError ∧ s.noteTargetError st x = s) := by
  unfold State.noteTargetError
  split
  · exact .inl ⟨‹_›, rfl⟩
  · exact .inr ⟨‹_›, by simp⟩

theorem hostOnly_noteTargetError (s : State) (st x : Word) : HostOnly s (s.noteTargetError st x) := hostOnly_agent ..

theorem hostOnly_abortAggregate (s : State) (k : AfterAggregate) (st x : Word) (raw : List Byte) :
    HostOnly s (s.abortAggregate k st x raw) := (hostOnly_noteTargetError s _ _).trans (hostOnly_fatal ..)

theorem hostOnly_collect (s : State) (r : TargetResponse) : HostOnly s (s.collect r) := hostOnly_agent ..

theorem hostOnly_beginAggregate (s : State) (k : AfterAggregate) : HostOnly s (s.beginAggregate k) :=
  (hostOnly_agent s _).trans (hostOnly_issueRead _ _)

/-- What going on with the next segment can do: end the image, reject the segment's address, or load the segment. -/
theorem nextSegment_cases (s : State) (k : AfterTransfer) :
    (s.agent.segments = [] ∧
      s.nextSegment k = s.issue (.txRaw Config.wireEnd :: .txFlush :: .rxOne :: readBack) (.finalAck k)) ∨
    (∃ g gs, s.agent.segments = g :: gs ∧ Config.segmentOutOfRange g.addr = true ∧
      s.nextSegment k = s.fatal .validationError []) ∨
    (∃ g gs, s.agent.segments = g :: gs ∧ Config.segmentOutOfRange g.addr = false ∧
      s.nextSegment k = s.issue (loadSegment g ++ readBack) (.loaded k)) := by
  unfold State.nextSegment State.issueLoad
  split
  · rename_i g gs _
    cases h : Config.segmentOutOfRange g.addr
    · exact .inr (.inr ⟨g, gs, ‹_›, h, by simp⟩)
    · exact .inr (.inl ⟨g, gs, ‹_›, h, by simp⟩)
  · exact .inl ⟨‹_›, rfl⟩

theorem hostOnly_nextSegment (s : State) (k : AfterTransfer) : HostOnly s (s.nextSegment k) := by
  rcases nextSegment_cases s k with ⟨_, h⟩ | ⟨_, _, _, _, h⟩ | ⟨_, _, _, _, h⟩ <;> rw [h]
  · exact hostOnly_issue ..
  · exact hostOnly_fatal ..
  · exact hostOnly_issue ..

/-- What sending the selector can do: be rejected, or send it. -/
theorem sendSelector_cases (s : State) :
    (selectsOutOfRange s.agent.selector = true ∧ s.sendSelector = s.fatal .validationError []) ∨
    (selectsOutOfRange s.agent.selector = false ∧
      s.sendSelector = s.issue (.txRaw s.agent.selector :: .txFlush :: .rxOne :: readBack) .selection) := by
  unfold State.sendSelector
  split <;> simp [*]

theorem hostOnly_sendSelector (s : State) : HostOnly s s.sendSelector := by
  rcases sendSelector_cases s with ⟨_, h⟩ | ⟨_, h⟩ <;> rw [h]
  · exact hostOnly_fatal ..
  · exact hostOnly_issue ..

theorem hostOnly_iterate (s : State) {again : State → State} (h : ∀ u, HostOnly u (again u)) :
    HostOnly s (s.iterate again) := by
  unfold State.iterate
  split
  · exact hostOnly_conclude ..
  · exact (hostOnly_agent s _).trans (h _)
  · exact h s

/-- What one more iteration of an unbounded loop can do: end the run if the token is set, or go on with the token read. -/
theorem iterate_cases (s : State) (again : State → State) :
    (s.agent.tokens.head? = some true ∧ s.iterate again = s.conclude .cancelled s.agent.phase []) ∨
    (s.agent.tokens.head? ≠ some true ∧
      s.iterate again = again { s with agent := { s.agent with tokens := s.agent.tokens.tail } }) := by
  unfold State.iterate
  split
  · rename_i h; exact .inl ⟨by simp [h], rfl⟩
  · rename_i h; exact .inr ⟨by simp [h], by simp [h]⟩
  · rename_i h
    have ht : s.agent.tokens.tail = s.agent.tokens := by simp [h]
    exact .inr ⟨by simp [h], by rw [ht]⟩

theorem hostOnly_retrySegment (s : State) (k : AfterTransfer) : HostOnly s (s.retrySegment k) :=
  hostOnly_iterate s fun _ => hostOnly_issue ..

theorem hostOnly_nextCode (s : State) (k : AfterAggregate) : HostOnly s (s.nextCode k) :=
  hostOnly_iterate s fun _ => hostOnly_issueRead ..

theorem hostOnly_beginBaudChange (s : State) : HostOnly s s.beginBaudChange := by
  unfold State.beginBaudChange
  dsimp only
  split
  · exact (hostOnly_enterPhase s _).trans (hostOnly_fatal ..)
  · exact (hostOnly_enterPhase s _).trans (hostOnly_issueCommand ..)

theorem hostOnly_afterCommand (s : State) (k : AfterCommand) : HostOnly s (s.afterCommand k) := by
  cases k with
  | finish => exact hostOnly_conclude ..
  | connectivity => exact hostOnly_beginAggregate ..
  | select => exact (hostOnly_enterPhase s _).trans (hostOnly_issueCommand ..)
  | selector => exact hostOnly_sendSelector s
  | baudCode c => exact (hostOnly_issue s _ _).trans (hostOnly_beginAggregate ..)
  | transfer => exact (hostOnly_enterPhase s _).trans (hostOnly_nextSegment ..)
  | flashResult => exact (hostOnly_enterPhase s _).trans (hostOnly_issueRead ..)

theorem hostOnly_beginJob (s : State) (j : Job) : HostOnly s (s.beginJob j) := by
  cases j with
  | command cmd => exact (hostOnly_beginRun s _ _ _).trans (hostOnly_issueCommand ..)
  | connectivity selector => exact (hostOnly_beginRun s _ _ _).trans (hostOnly_issueCommand ..)
  | transfer => exact hostOnly_beginRun ..
  | session selector baud =>
    exact ((hostOnly_beginRun s _ _ _).trans (hostOnly_enterPhase _ _)).trans (hostOnly_issue ..)

theorem hostOnly_judgeCommand (s : State) (cmd : Byte) (n : Nat) (k : AfterCommand) (st x : Word) :
    HostOnly s (s.judgeCommand cmd n k st x) := by
  unfold State.judgeCommand
  split
  · exact hostOnly_afterCommand ..
  · split
    · exact (hostOnly_noteTargetError s _ _).trans (hostOnly_fatal ..)
    · split
      · exact (hostOnly_note s _).trans (hostOnly_fatal ..)
      · exact (hostOnly_note s _).trans (hostOnly_issueCommand ..)

theorem hostOnly_judgeSelection (s : State) (st x : Word) : HostOnly s (s.judgeSelection st x) := by
  unfold State.judgeSelection
  split
  · exact hostOnly_beginBaudChange s
  · split
    · exact (hostOnly_noteError s _).trans (hostOnly_fatal ..)
    · exact hostOnly_fatal ..

theorem hostOnly_aggregateDone (s : State) (k : AfterAggregate) (st x : Word) :
    HostOnly s (s.aggregateDone k st x) := by
  unfold State.aggregateDone
  split
  · cases k with
    | finish => exact hostOnly_conclude ..
    | receive => exact (hostOnly_enterPhase s _).trans (hostOnly_issueCommand ..)
  · exact hostOnly_fatal ..

theorem hostOnly_judgeTargetCode (s : State) (k : AfterAggregate) (st x : Word) :
    HostOnly s (s.judgeTargetCode k st x) := by
  unfold State.judgeTargetCode
  split
  · exact hostOnly_nextCode ..
  · split
    · exact hostOnly_aggregateDone ..
    · exact hostOnly_issueRead ..

theorem hostOnly_judgeOutcome (s : State) (code : Byte) (k : AfterAggregate) (st x : Word) :
    HostOnly s (s.judgeOutcome code k st x) := by
  unfold State.judgeOutcome
  split
  · exact hostOnly_abortAggregate ..
  · split
    · exact (hostOnly_collect s _).trans (hostOnly_nextCode ..)
    · exact (hostOnly_note s _).trans (hostOnly_nextCode ..)
    · exact (hostOnly_note s _).trans (hostOnly_nextCode ..)
    · exact hostOnly_abortAggregate ..

theorem hostOnly_judgeLoaded (s : State) (k : AfterTransfer) (st x : Word) : HostOnly s (s.judgeLoaded k st x) := by
  unfold State.judgeLoaded
  split
  · exact hostOnly_fatal ..
  · exact hostOnly_issue ..

theorem hostOnly_judgeFrame (s : State) (k : AfterTransfer) (st x : Word) : HostOnly s (s.judgeFrame k st x) := by
  unfold State.judgeFrame
  split
  · exact (hostOnly_agent s _).trans (hostOnly_nextSegment ..)
  · split
    · exact hostOnly_retrySegment ..
    · split
      · exact hostOnly_fatal ..
      · split
        · exact (hostOnly_noteError s _).trans (hostOnly_retrySegment ..)
        · exact (hostOnly_note s _).trans (hostOnly_retrySegment ..)

theorem hostOnly_judgeFinalAck (s : State) (k : AfterTransfer) (st x : Word) :
    HostOnly s (s.judgeFinalAck k st x) := by
  unfold State.judgeFinalAck
  split
  · cases k with
    | finish => exact hostOnly_conclude ..
    | flash => exact (hostOnly_enterPhase s _).trans (hostOnly_issueCommand ..)
  · cases k <;> exact (hostOnly_noteTargetError s _ _).trans (hostOnly_conclude ..)

theorem hostOnly_judgeFlash (s : State) (st x : Word) : HostOnly s (s.judgeFlash st x) := by
  unfold State.judgeFlash
  split
  · split
    · exact hostOnly_conclude ..
    · split
      · exact (hostOnly_noteError s _).trans (hostOnly_conclude ..)
      · exact (hostOnly_note s _).trans (hostOnly_conclude ..)
  · exact (hostOnly_note s _).trans (hostOnly_iterate _ fun _ => hostOnly_issueRead ..)

theorem hostOnly_withWords {s t : State} {f : Word → Word → State} (hf : ∀ st x, HostOnly s (f st x))
    (h : s.withWords f = .next t) : HostOnly s t := by
  unfold State.withWords at h
  split at h
  · cases h
  · cases h; exact hf _ _

/-- A move of the host agent appends requests and changes the agent, and nothing else. -/
theorem agentStep_hostOnly {s t : State} (h : agentStep s = .next t) : HostOnly s t := by
  unfold agentStep at h
  split at h
  · cases h; exact .refl s
  · cases h; exact hostOnly_beginJob ..
  · cases h; exact (hostOnly_enterPhase s _).trans (hostOnly_issueCommand ..)
  · exact hostOnly_withWords (hostOnly_judgeCommand s _ _ _) h
  · exact hostOnly_withWords (hostOnly_judgeSelection s) h
  · exact hostOnly_withWords (hostOnly_judgeTargetCode s _) h
  · exact hostOnly_withWords (hostOnly_judgeOutcome s _ _) h
  · cases h; exact hostOnly_nextSegment ..
  · exact hostOnly_withWords (hostOnly_judgeLoaded s _) h
  · exact hostOnly_withWords (hostOnly_judgeFrame s _) h
  · exact hostOnly_withWords (hostOnly_judgeFinalAck s _) h
  · exact hostOnly_withWords (hostOnly_judgeFlash s) h

/-- If `t` stands at no point of a sequence, the run ended and issued nothing: `t` has the requests of `s` (60_exceptions R245). -/
def EndsQuiet (s t : State) : Prop := t.agent.point = .idle → t.requests = s.requests

theorem endsQuiet_of_ne {s t : State} (h : t.agent.point ≠ .idle) : EndsQuiet s t := fun h' => absurd h' h

theorem endsQuiet_nextSegment (s : State) (k : AfterTransfer) : EndsQuiet s (s.nextSegment k) := by
  rcases nextSegment_cases s k with ⟨_, h⟩ | ⟨_, _, _, _, h⟩ | ⟨_, _, _, _, h⟩ <;> rw [h]
  · exact endsQuiet_of_ne nofun
  · exact fun _ => rfl
  · exact endsQuiet_of_ne nofun

theorem endsQuiet_iterate (s : State) {again : State → State} (h : ∀ u, (again u).agent.point ≠ .idle) :
    EndsQuiet s (s.iterate again) := by
  rcases iterate_cases s again with ⟨_, e⟩ | ⟨_, e⟩ <;> rw [e]
  · exact fun _ => rfl
  · exact endsQuiet_of_ne (h _)

theorem endsQuiet_nextCode (s : State) (k : AfterAggregate) : EndsQuiet s (s.nextCode k) := endsQuiet_iterate s fun _ => nofun

theorem endsQuiet_retrySegment (s : State) (k : AfterTransfer) : EndsQuiet s (s.retrySegment k) :=
  endsQuiet_iterate s fun _ => nofun

theorem endsQuiet_afterCommand (s : State) (k : AfterCommand) : EndsQuiet s (s.afterCommand k) := by
  cases k
  case finish => exact fun _ => rfl
  case selector =>
    rcases sendSelector_cases s with ⟨_, h⟩ | ⟨_, h⟩ <;> simp only [State.afterCommand, h]
    · exact fun _ => rfl
    · exact endsQuiet_of_ne nofun
  case transfer => exact endsQuiet_nextSegment _ _
  all_goals exact endsQuiet_of_ne nofun

/-- A move of the host agent that ends a run, or finds none, issues nothing (60_exceptions R245). -/
theorem agentStep_endsQuiet {s t : State} (h : agentStep s = .next t) : EndsQuiet s t := by
  have ww {f : Word → Word → State} (hf : ∀ st x, EndsQuiet s (f st x)) (h : s.withWords f = .next t) : EndsQuiet s t := by
    unfold State.withWords at h
    split at h
    · cases h
    · cases h; exact hf _ _
  unfold agentStep at h
  split at h
  · cases h; exact fun _ => rfl
  · rename_i j _
    cases h; cases j <;> exact endsQuiet_of_ne nofun
  · cases h; exact endsQuiet_of_ne nofun
  · refine ww (fun st x => ?_) h
    unfold State.judgeCommand
    repeat' split
    · exact endsQuiet_afterCommand _ _
    · exact fun _ => rfl
    · exact fun _ => rfl
    · exact endsQuiet_of_ne nofun
  · refine ww (fun st x => ?_) h
    unfold State.judgeSelection State.beginBaudChange
    dsimp only
    repeat' split
    all_goals first | exact fun _ => rfl | exact endsQuiet_of_ne nofun
  · refine ww (fun st x => ?_) h
    unfold State.judgeTargetCode State.aggregateDone
    repeat' split
    · exact endsQuiet_nextCode _ _
    all_goals first | exact fun _ => rfl | exact endsQuiet_of_ne nofun
  · refine ww (fun st x => ?_) h
    unfold State.judgeOutcome
    repeat' split
    all_goals first | exact fun _ => rfl | exact endsQuiet_nextCode _ _
  · cases h; exact endsQuiet_nextSegment _ _
  · refine ww (fun st x => ?_) h
    unfold State.judgeLoaded
    split
    · exact fun _ => rfl
    · exact endsQuiet_of_ne nofun
  · refine ww (fun st x => ?_) h
    unfold State.judgeFrame
    repeat' split
    · exact endsQuiet_nextSegment _ _
    all_goals first | exact fun _ => rfl | exact endsQuiet_retrySegment _ _
  · refine ww (fun st x => ?_) h
    unfold State.judgeFinalAck
    repeat' split
    all_goals first | exact fun _ => rfl | exact endsQuiet_of_ne nofun
  · refine ww (fun st x => ?_) h
    unfold State.judgeFlash
    repeat' split
    all_goals first | exact fun _ => rfl | exact endsQuiet_iterate _ fun _ => nofun

/-- What a step can be: the agent's move, a decoded instruction, or a reserved selector, on the state with the request taken. -/
theorem step_cases {s t : State} (h : step s = .next t) :
    (s.requests = [] ∧ agentStep s = .next t) ∨
    ∃ r rest d, s.requests = r :: rest ∧ fetch s = .txn d { s with requests := rest } ∧
      ((∃ i, d = .op i ∧ exec i { s with requests := rest } = .next t) ∨
       ((∃ sel, d = .reservedWrite sel) ∧ reservedWrite { s with requests := rest } = .next t) ∨
       ((∃ sel, d = .reservedRead sel) ∧ reservedRead { s with requests := rest } = .next t)) := by
  unfold step at h
  cases hr : s.requests with
  | nil =>
    have hf : fetch s = .nothing := by simp [fetch, hr]
    rw [hf] at h
    exact .inl ⟨rfl, h⟩
  | cons r rest =>
    cases ht : r.txn? with
    | none =>
      have hf : fetch s = .undefinedAccess := by simp [fetch, hr, ht]
      rw [hf] at h; cases h
    | some w =>
      have hf : fetch s = .txn (decode w) { s with requests := rest } := by simp [fetch, hr, ht]
      refine .inr ⟨r, rest, decode w, rfl, hf, ?_⟩
      rw [hf] at h
      cases hd : decode w with
      | op i => rw [hd] at h; exact .inl ⟨i, rfl, h⟩
      | reservedWrite sel => rw [hd] at h; exact .inr (.inl ⟨⟨sel, rfl⟩, h⟩)
      | reservedRead sel => rw [hd] at h; exact .inr (.inr ⟨⟨sel, rfl⟩, h⟩)

end Sys2Proof.Laws
end

