-- ==== Sys2Proof/Laws/Memory.lean ====
section
/-! SUPPORT. The payload memory: a read after a write, the canonical form, and the payload of a covered buffer. -/

namespace Sys2Proof.Laws

open Sys2Proof.Machine

/-- A read after a write to the same index gives the byte written. -/
@[simp] theorem memory_read_write_same (m : List Host.Cell) (a : Nat) (b : Byte) :
    Memory.read (Memory.write m a b) a = some b := by
  induction m with
  | nil => simp [Memory.write, Memory.read]
  | cons c m ih =>
    obtain ⟨k, v⟩ := c
    unfold Memory.write
    split
    · simp [Memory.read]
    · split
      · simp [Memory.read]
      · rename_i h1 h2
        simp [Memory.read, Ne.symm h2, ih]

/-- A write leaves every other index alone. -/
theorem memory_read_write_other (m : List Host.Cell) {a i : Nat} (b : Byte) (h : i ≠ a) :
    Memory.read (Memory.write m a b) i = Memory.read m i := by
  induction m with
  | nil => simp [Memory.write, Memory.read, Ne.symm h]
  | cons c m ih =>
    obtain ⟨k, v⟩ := c
    unfold Memory.write
    split
    · simp [Memory.read, Ne.symm h]
    · split
      · rename_i h1 h2
        subst h2
        simp [Memory.read, Ne.symm h]
      · simp [Memory.read, ih]

/-- The canonical form says that the indices are strictly rising. -/
theorem memory_wf_iff (m : List Host.Cell) : Memory.wf m = true ↔ (m.map Prod.fst).IsChain (· < ·) := by
  induction m with
  | nil => simp [Memory.wf]
  | cons c m ih =>
    obtain ⟨a, x⟩ := c
    cases m with
    | nil => simp [Memory.wf]
    | cons d m =>
      obtain ⟨b, y⟩ := d
      simp only [Memory.wf, Bool.and_eq_true, decide_eq_true_eq, ih]
      simp

/-- A write to a well-formed memory starts at the old first index or at the index written. -/
theorem memory_write_head (k : Nat) (v : Byte) (m : List Host.Cell) (a : Nat) (b : Byte) :
    ∃ y r, Memory.write ((k, v) :: m) a b = (min a k, y) :: r := by
  unfold Memory.write
  split
  · exact ⟨b, (k, v) :: m, by simp; omega⟩
  · split
    · exact ⟨b, m, by simp; omega⟩
    · exact ⟨v, Memory.write m a b, by simp; omega⟩

/-- A write keeps the canonical form. -/
theorem memory_write_wf (m : List Host.Cell) (a : Nat) (b : Byte) (h : Memory.wf m = true) :
    Memory.wf (Memory.write m a b) = true := by
  induction m with
  | nil => rfl
  | cons c m ih =>
    obtain ⟨k, v⟩ := c
    have htail : Memory.wf m = true := by
      cases m with
      | nil => rfl
      | cons d m => obtain ⟨j, y⟩ := d; simp [Memory.wf] at h; exact h.2
    unfold Memory.write
    split
    · rename_i hlt
      simpa [Memory.wf, hlt] using h
    · split
      · rename_i _ heq
        subst heq
        cases m with
        | nil => rfl
        | cons d m => obtain ⟨j, y⟩ := d; simpa [Memory.wf] using h
      · rename_i hnlt hne
        have ih' := ih htail
        cases m with
        | nil => simp [Memory.write, Memory.wf]; omega
        | cons d m =>
          obtain ⟨j, y⟩ := d
          obtain ⟨z, r, hw⟩ := memory_write_head j y m a b
          rw [hw] at ih' ⊢
          simp only [Memory.wf, Bool.and_eq_true, decide_eq_true_eq] at h ⊢
          exact ⟨by omega, ih'⟩

/-- The empty memory, which reset, `INIT` and `FRM.CLR` leave, is canonical. -/
@[simp] theorem memory_wf_nil : Memory.wf [] = true := rfl

/-- `PBUF` is canonical at reset. -/
theorem reset_memory_wf : Memory.wf State.reset.pbuf = true := rfl

/-- Reading the canonical list of consecutive cells from `i` on. -/
theorem memory_read_range' (m : List Host.Cell) (i : Nat) :
    m.map Prod.fst = List.range' i m.length → ∀ j, j < m.length → Memory.read m (i + j) = (m.map Prod.snd)[j]? := by
  induction m generalizing i with
  | nil => intro _ j hj; simp at hj
  | cons c m ih =>
    obtain ⟨k, v⟩ := c
    intro h j hj
    simp only [List.map_cons, List.length_cons, List.range'_succ, List.cons.injEq] at h
    obtain ⟨rfl, h2⟩ := h
    cases j with
    | zero => simp [Memory.read]
    | succ j =>
      have := ih (k + 1) h2 j (by simpa using hj)
      simp only [Memory.read]
      rw [if_neg (by omega)]
      simp only [List.map_cons, List.getElem?_cons_succ]
      rw [← this]; congr 1; omega

/-- The bytes of consecutive readable entries. -/
theorem payloadFrom_eq_some (s : State) (bs : List Byte) (i : Nat)
    (h : ∀ j, j < bs.length → s.pbufRead (i + j) = bs[j]?) : s.payloadFrom i bs.length = some bs := by
  induction bs generalizing i with
  | nil => rfl
  | cons b bs ih =>
    have h0 : s.pbufRead i = some b := by simpa using h 0 (by simp)
    have h1 := ih (i + 1) (fun j hj => by
      have := h (j + 1) (by simpa using hj)
      rw [show i + 1 + j = i + (j + 1) by omega, this]; simp)
    simp [State.payloadFrom, h0, h1]

/-- Under the invariant the payload is what the cells of `PBUF` hold, all of it readable. -/
theorem payload_of_inv {s : State} (h : Safety.Inv s) : s.payload = some (s.pbuf.map Prod.snd) := by
  have hlen : s.pbuf.length = s.pcnt.toNat := by simpa using congrArg List.length h.2.1
  have hr : s.pbuf.map Prod.fst = List.range' 0 s.pbuf.length := by rw [h.2.1, hlen, List.range_eq_range']
  have hread := memory_read_range' s.pbuf 0 hr
  have := payloadFrom_eq_some s (s.pbuf.map Prod.snd) 0 (fun j hj => by
    have hj' : j < s.pbuf.length := by simpa using hj
    have hb := h.1
    have hrd := hread j hj'
    simp only [Nat.zero_add] at hrd ⊢
    rw [State.pbufRead, if_pos ⟨by omega, by omega⟩, hrd])
  rw [State.payload, ← hlen]
  simpa using this

/-- Under the invariant the payload is as long as `PCNT` says. -/
theorem payload_length_of_inv {s : State} (h : Safety.Inv s) : (s.pbuf.map Prod.snd).length = s.pcnt.toNat := by
  simpa using congrArg List.length h.2.1

end Sys2Proof.Laws
end

