-- ==== Sys2Proof/Laws/Ops.lean ====
section
/-! SUPPORT. One lemma per shared operation that says once all it does. -/

namespace Sys2Proof.Laws

open Sys2Proof.Machine

/-- A receive consumes one answer, records it, and holds it. -/
theorem receive_eq (s : State) :
    s.receive = { s with
      answers := s.answers.tail, events := s.events ++ [.rx s.linkAnswer],
      rxb := s.linkAnswer.getD s.rxb, rxv := s.linkAnswer.isSome || s.rxv } := by
  unfold State.receive
  cases h : s.linkAnswer <;> simp [State.hold, State.linkRead, h]

/-- An answer asked for after further events. -/
theorem linkAnswer_append (s : State) (es : List LinkEvent) :
    ({ s with events := s.events ++ es } : State).linkAnswer = s.answerAfter es := by
  simp [State.linkAnswer, State.answerAfter]

/-- With an oracle that has an answer left, that is the answer, whatever has happened. -/
theorem answerAfter_cons {s : State} {a : Option Byte} {as : List (Option Byte)} (h : s.answers = a :: as)
    (es : List LinkEvent) : s.answerAfter es = a := by
  simp [State.answerAfter, h]

/-- Covered bytes advance `CRC` by their checksum and go out in order. -/
theorem sendCovered_eq (s : State) (bs : List Byte) :
    s.sendCovered bs = { s with crc := crc16 bs s.crc, events := s.events ++ bs.map .tx } := by
  induction bs generalizing s with
  | nil => simp [State.sendCovered, crc16]
  | cons b bs ih => simp [State.sendCovered, ih, crc16, State.absorb, State.linkWrite]

/-- The transmit part changes `CRC` and appends link writes, and nothing else. -/
theorem transmitFrame_eq (s : State) (p : List Byte) :
    s.transmitFrame p =
      let k := crc16 (le32 s.addr ++ le16 (s.pcnt.setWidth 16) ++ p) Config.crcSeed
      { s with
        crc := k
        events := s.events ++
          ([Config.wireStart] ++ (le32 s.addr ++ le16 (s.pcnt.setWidth 16)) ++ p ++ le16 k).map .tx } := by
  simp [State.transmitFrame, State.sendChecksum, State.linkWrite, sendCovered_eq, crc16, le16]

/-- The end of an exchange: flush, one read, the answer held and judged. -/
theorem finishExchange_eq (s : State) (e : Byte) :
    s.finishExchange e =
      let a := s.answerAfter [.flush]
      { s with
        answers := s.answers.tail, events := s.events ++ [.flush, .rx a],
        rxb := a.getD s.rxb, rxv := a.isSome || s.rxv, res := judge e a } := by
  have h : s.linkFlush.linkAnswer = s.answerAfter [.flush] := linkAnswer_append s [.flush]
  unfold State.finishExchange
  simp only [receive_eq, h]
  simp [State.setRes, State.linkFlush]

/-- A refusal writes one flag and `RES`; the flags it does not name stay. -/
theorem refuse_flags (s : State) (f : RefusalFlag) :
    (s.refuse f).fIll = (s.fIll || f == .ill) ∧ (s.refuse f).fLen = (s.fLen || f == .len) ∧
    (s.refuse f).fOvf = (s.fOvf || f == .ovf) := by
  cases f <;> simp [State.refuse, State.setFlag, State.setRes]

/-- Checksum over a sequence in two parts. -/
theorem crc16_cons (b : Byte) (bs : List Byte) (c : Crc) : crc16 (b :: bs) c = crc16 bs (crcByte c b) := rfl

end Sys2Proof.Laws
end

