-- ==== Sys2Proof/Laws/Port.lean ====
section
/-! SUPPORT. The host port and the host agent's moves: what a fetch finds, the fields of a packed transaction, and that a move
of the agent touches only the host's side. -/

namespace Sys2Proof.Laws

open Sys2Proof.Machine

/-- With no request outstanding, nothing is fetched. -/
theorem fetch_nil {s : State} (h : s.requests = []) : fetch s = .nothing := by simp [fetch, h]

/-- A request that is a transaction is fetched and decoded, and taken off the list. -/
theorem fetch_txn {s : State} {r : Request} {rest : List Request} {t : Txn} (h : s.requests = r :: rest)
    (ht : r.txn? = some t) : fetch s = .txn (decode t) { s with requests := rest } := by simp [fetch, h, ht]

/-- A request the binding does not define is found as such. -/
theorem fetch_undefined {s : State} {r : Request} {rest : List Request} (h : s.requests = r :: rest)
    (ht : r.txn? = none) : fetch s = .undefinedAccess := by simp [fetch, h, ht]

/-- A run of any machine whose first step leads to `t` goes on from `t`. -/
theorem run_succ_of_core_step (M : Host.Core) {k : Nat} {s t : M.State} (h : M.step s = .next t) :
    M.run (k + 1) s = M.run k t := by
  rw [Host.Core.run, h]

/-- A run whose first step leads to `t` goes on from `t`. -/
theorem run_succ_of_step {k : Nat} {s t : State} (h : step s = .next t) :
    Sys2Proof.core.run (k + 1) s = Sys2Proof.core.run k t :=
  run_succ_of_core_step Sys2Proof.core h

@[simp] theorem rwOf_packTxn (rw : Bool) (sel : BitVec 4) (data : Word) : rwOf (packTxn rw sel data) = rw := by
  unfold rwOf packTxn
  rw [BitVec.getLsbD_append, BitVec.getLsbD_append]
  cases rw <;> simp

@[simp] theorem selOf_packTxn (rw : Bool) (sel : BitVec 4) (data : Word) : selOf (packTxn rw sel data) = sel := by
  unfold selOf packTxn
  apply BitVec.eq_of_getLsbD_eq
  intro i hi
  rw [BitVec.getLsbD_extractLsb', BitVec.getLsbD_append, BitVec.getLsbD_append]
  simp [hi, show ¬(32 + i < 32) by omega]

@[simp] theorem dataOf_packTxn (rw : Bool) (sel : BitVec 4) (data : Word) : dataOf (packTxn rw sel data) = data := by
  unfold dataOf packTxn
  apply BitVec.eq_of_getLsbD_eq
  intro i hi
  rw [BitVec.getLsbD_extractLsb', BitVec.getLsbD_append]
  simp [hi]

/-- A packed transaction decodes by its selector. -/
theorem decode_packTxn (rw : Bool) (sel : BitVec 4) (data : Word) :
    decode (packTxn rw sel data) = if rw then decodeWrite sel data else decodeRead sel := by
  simp [decode]

end Sys2Proof.Laws
end

