-- ==== Sys2Proof/Laws/Exec.lean ====
section
/-! SUPPORT. What an instruction can do, said once for all of them; what a step is with no request; and runs in two parts. -/

namespace Sys2Proof.Laws

open Sys2Proof.Machine

/-- A count is zero when its number is. -/
theorem pcnt_eq_zero (s : State) : s.pcnt = 0#9 ↔ s.pcnt.toNat = 0 := by
  constructor
  · intro h; simp [h]
  · intro h; apply BitVec.eq_of_toNat_eq; simpa using h

/-- Everything an instruction that gives a next state can do. -/
theorem exec_cases {i : Instr} {s t : State} (h : exec i s = .next t) :
    (i = .init ∧ t = s.resetBlock) ∨
    (∃ v, i = .crcSeed v ∧ t = { s with crc := v }) ∨
    (∃ v, i = .crcByte v ∧ t = { s with crc := crcByte s.crc v }) ∨
    (∃ v, i = .frmAddr v ∧ t = { s with addr := v }) ∨
    (i = .frmClr ∧ t = { s with pcnt := 0#9, pbuf := [] }) ∨
    (∃ v, i = .frmPush v ∧ s.pcnt.toNat = 256 ∧ t = { s with fOvf := true, res := .refused }) ∨
    (∃ v, i = .frmPush v ∧ s.pcnt.toNat < 256 ∧
      t = { s with pbuf := Memory.write s.pbuf s.pcnt.toNat v, pcnt := s.pcnt + 1#9 }) ∨
    ((i = .frmTx ∨ i = .xchFrm) ∧ s.pcnt.toNat = 0 ∧ t = { s with fLen := true, res := .refused }) ∨
    (∃ (k : Crc) (bs : List Byte), i = .frmTx ∧ s.pcnt.toNat ≠ 0 ∧
      t = { s with crc := k, res := .sent, events := s.events ++ bs.map .tx }) ∨
    (∃ (k : Crc) (bs : List Byte) (a : Option Byte), i = .xchFrm ∧ s.pcnt.toNat ≠ 0 ∧
      t = { s with
        crc := k, exp := 0xAA#8, rxv := a.isSome, rxb := a.getD 0, res := judge 0xAA#8 a,
        answers := s.answers.tail, events := s.events ++ (bs.map .tx ++ [.flush, .rx a]) }) ∨
    (∃ (c : Byte) (a : Option Byte), i = .xchCmd c ∧
      t = { s with
        exp := c, rxv := a.isSome, rxb := a.getD 0, res := judge c a,
        answers := s.answers.tail, events := s.events ++ ([c].map .tx ++ [.flush, .rx a]) }) ∨
    (∃ c, i = .txRaw c ∧ t = { s with res := .sent, events := s.events ++ [.tx c] }) ∨
    (i = .txFlush ∧ t = { s with res := .sent, events := s.events ++ [.flush] }) ∨
    (∃ a, i = .rxOne ∧
      t = { s with
        rxv := a.isSome, rxb := a.getD 0, res := judgeRaw a,
        answers := s.answers.tail, events := s.events ++ [.rx a] }) ∨
    (∃ w, i.isWrite = false ∧ t = { s with returned := s.returned ++ [w] }) := by
  cases i
  case init => left; exact ⟨rfl, by cases h; rfl⟩
  case crcSeed v => right; left; exact ⟨v, rfl, by cases h; rfl⟩
  case crcByte v => right; right; left; exact ⟨v, rfl, by cases h; rfl⟩
  case frmAddr v =>
    iterate 3 right
    left; exact ⟨v, rfl, by cases h; rfl⟩
  case frmClr =>
    iterate 4 right
    left; exact ⟨rfl, by cases h; rfl⟩
  case frmPush v =>
    simp only [exec, execFrmPush] at h
    iterate 5 right
    by_cases c1 : s.pcnt.toNat = Config.pbufSize
    · rw [if_pos c1] at h; left; cases h; exact ⟨v, rfl, c1, rfl⟩
    · rw [if_neg c1] at h
      by_cases c2 : s.pcnt.toNat < Config.pbufSize
      · rw [if_pos c2] at h; right; left; cases h; exact ⟨v, rfl, c2, rfl⟩
      · rw [if_neg c2] at h; cases h
  case frmTx =>
    simp only [exec, execFrmTx, pcnt_eq_zero] at h
    iterate 7 right
    split at h
    · left; cases h; exact ⟨.inl rfl, ‹_›, rfl⟩
    · split at h
      · cases h
      · right; left; cases h
        rw [transmitFrame_eq]
        exact ⟨_, _, rfl, ‹_›, rfl⟩
  case xchFrm =>
    simp only [exec, execXchFrm, pcnt_eq_zero] at h
    iterate 7 right
    split at h
    · left; cases h; exact ⟨.inr rfl, ‹_›, rfl⟩
    · split at h
      · cases h
      · right; right; left; cases h
        rw [transmitFrame_eq, finishExchange_eq]
        dsimp only [State.clearHeld, Config.wireAck]
        simp only [List.append_assoc, Bool.or_false]
        refine ⟨_, _, _, trivial, ‹_›, Eq.refl _⟩
  case xchCmd c =>
    iterate 10 right
    left; cases h
    simp only [finishExchange_eq, State.clearHeld, State.linkWrite, List.append_assoc, Bool.or_false]
    exact ⟨c, _, rfl, rfl⟩
  case txRaw c =>
    iterate 11 right
    left; cases h; exact ⟨c, rfl, rfl⟩
  case txFlush =>
    iterate 12 right
    left; cases h; exact ⟨rfl, rfl⟩
  case rxOne =>
    iterate 13 right
    left; cases h
    refine ⟨s.answerAfter [], rfl, ?_⟩
    have h : s.clearHeld.linkAnswer = s.answerAfter [] := rfl
    simp only [receive_eq, h]
    simp only [State.linkAnswer, State.setRes, State.clearHeld, Bool.or_false]
    rfl
  all_goals
    iterate 14 right
    cases h; exact ⟨_, rfl, rfl⟩

/-- A write just past the entries `0 .. n-1` gives the entries `0 .. n`. -/
theorem memory_write_keys (m : List Host.Cell) (n : Nat) (b : Byte) (h : m.map Prod.fst = List.range n) :
    (Memory.write m n b).map Prod.fst = List.range (n + 1) := by
  have : ∀ (m : List Host.Cell) (n : Nat), (∀ k ∈ m.map Prod.fst, k < n) →
      Memory.write m n b = m ++ [(n, b)] := by
    intro m n
    induction m with
    | nil => intro; rfl
    | cons c m ih =>
      obtain ⟨k, v⟩ := c
      intro hk
      simp at hk
      simp [Memory.write]
      rw [if_neg (by omega), if_neg (by omega), ih (by simpa using hk.2)]
  rw [this m n (by rw [h]; simp)]
  simp [h, List.range_succ]

/-- With no request outstanding, a step is a move of the host agent. -/
theorem step_of_no_request {s : State} (h : s.requests = []) : step s = agentStep s := by
  unfold step; rw [fetch_nil h]

/-- A run in two parts. -/
theorem run_add (M : Host.Core) (a b : Nat) (s t : M.State) (h : M.run a s = .next t) :
    M.run (a + b) s = M.run b t := by
  induction a generalizing s with
  | zero => rw [Host.Core.run] at h; cases h; simp
  | succ a ih =>
    rw [show a + 1 + b = (a + b) + 1 by omega, Host.Core.run]
    rw [Host.Core.run] at h
    split at h
    · exact ih _ h
    · cases h
    · cases h

end Sys2Proof.Laws
end

