-- ==== Sys2Proof/Laws/PerInstr.lean ====
section
/-! SUPPORT. Per instruction: the header of its transaction word is the row of the operation map it stands for. -/

namespace Sys2Proof.Laws.EncodeHeader

/-- The bits that select the instruction, as spec/opcode_table.json has them under its mask `0x1F00000000`. -/
def tableMatch : Instr → BitVec 37
  | .init => 0x1000000000#37
  | .crcSeed _ => 0x1100000000#37
  | .crcByte _ => 0x1200000000#37
  | .frmAddr _ => 0x1300000000#37
  | .frmClr => 0x1400000000#37
  | .frmPush _ => 0x1500000000#37
  | .frmTx => 0x1600000000#37
  | .xchFrm => 0x1700000000#37
  | .xchCmd _ => 0x1800000000#37
  | .txRaw _ => 0x1900000000#37
  | .txFlush => 0x1A00000000#37
  | .rxOne => 0x1B00000000#37
  | .rdStatus => 0x0000000000#37
  | .rdCrc => 0x0100000000#37
  | .rdAddr => 0x0300000000#37
  | .rdPcnt => 0x0400000000#37
  | .rdXbyte => 0x0800000000#37

/-- The instruction is well formed and its word carries its row's fixed bits (30_encoding R90). -/
def Statement (i : Instr) : Prop := i.wf = true ∧ encode i &&& 0x1F00000000#37 = tableMatch i

/-- Under the table's mask only `rw` and `sel` are left. -/
theorem packTxn_mask (rw : Bool) (sel : BitVec 4) (data : Word) :
    packTxn rw sel data &&& 0x1F00000000#37 = packTxn rw sel 0#32 := by
  apply BitVec.eq_of_getLsbD_eq
  intro i hi
  unfold packTxn
  simp only [BitVec.getLsbD_and, BitVec.getLsbD_append]
  have hmask : (0x1F00000000#37).getLsbD i = decide (32 ≤ i) := by
    have : ∀ k : Fin 37, (0x1F00000000#37).getLsbD k.val = decide (32 ≤ k.val) := by decide
    exact this ⟨i, hi⟩
  rw [hmask]
  by_cases h : i < 32
  · simp [h]
  · simp [h, show 32 ≤ i by omega]

theorem init : Statement .init := ⟨rfl, by decide⟩
theorem crcSeed (imm : BitVec 16) : Statement (.crcSeed imm) :=
  ⟨rfl, (packTxn_mask _ _ _).trans (by decide : packTxn true 0x1#4 0#32 = 0x1100000000#37)⟩
theorem crcByte (imm : BitVec 8) : Statement (.crcByte imm) :=
  ⟨rfl, (packTxn_mask _ _ _).trans (by decide : packTxn true 0x2#4 0#32 = 0x1200000000#37)⟩
theorem frmAddr (imm : BitVec 32) : Statement (.frmAddr imm) :=
  ⟨rfl, (packTxn_mask _ _ _).trans (by decide : packTxn true 0x3#4 0#32 = 0x1300000000#37)⟩
theorem frmClr : Statement .frmClr := ⟨rfl, by decide⟩
theorem frmPush (imm : BitVec 8) : Statement (.frmPush imm) :=
  ⟨rfl, (packTxn_mask _ _ _).trans (by decide : packTxn true 0x5#4 0#32 = 0x1500000000#37)⟩
theorem frmTx : Statement .frmTx := ⟨rfl, by decide⟩
theorem xchFrm : Statement .xchFrm := ⟨rfl, by decide⟩
theorem xchCmd (imm : BitVec 8) : Statement (.xchCmd imm) :=
  ⟨rfl, (packTxn_mask _ _ _).trans (by decide : packTxn true 0x8#4 0#32 = 0x1800000000#37)⟩
theorem txRaw (imm : BitVec 8) : Statement (.txRaw imm) :=
  ⟨rfl, (packTxn_mask _ _ _).trans (by decide : packTxn true 0x9#4 0#32 = 0x1900000000#37)⟩
theorem txFlush : Statement .txFlush := ⟨rfl, by decide⟩
theorem rxOne : Statement .rxOne := ⟨rfl, by decide⟩
theorem rdStatus : Statement .rdStatus := ⟨rfl, by decide⟩
theorem rdCrc : Statement .rdCrc := ⟨rfl, by decide⟩
theorem rdAddr : Statement .rdAddr := ⟨rfl, by decide⟩
theorem rdPcnt : Statement .rdPcnt := ⟨rfl, by decide⟩
theorem rdXbyte : Statement .rdXbyte := ⟨rfl, by decide⟩

end Sys2Proof.Laws.EncodeHeader
end

