-- ==== Sys2Proof/Tests/Slice0.lean ====
section
/-! SUPPORT. The model's own tests: ill-formed terms refused, words written out from the spec's encodings, single steps with the
results of spec/95_test_vectors.md, and for every statement with hypotheses a state and operands that meet them. -/

namespace Sys2Proof.Tests

open Sys2Proof Sys2Proof.Machine Sys2Proof.Safety

/-! ### Helpers -/

/-- The outcome is a next state with the property `p`. -/
def gives (o : Host.Outcome State Fault Refusal) (p : State → Bool) : Bool :=
  match o with
  | .next t => p t
  | .fault _ => false
  | .refused _ => false

/-- The reset state with these answers in the oracle. -/
def answered (as : List (Option Byte)) : State := { State.reset with answers := as }

/-- The segment `(0x00008000, 01 02 03 04)` loaded from reset, with these answers in the oracle. -/
def loaded (as : List (Option Byte)) : State :=
  { answered as with
    addr := 0x00008000#32, pcnt := 4#9, pbuf := [(0, 0x01#8), (1, 0x02#8), (2, 0x03#8), (3, 0x04#8)] }

/-- The frame of that segment (95_test_vectors B2.1, first row). -/
def loadedFrame : List Byte :=
  [0x55#8, 0x00#8, 0x80#8, 0x00#8, 0x00#8, 0x04#8, 0x00#8, 0x01#8, 0x02#8, 0x03#8, 0x04#8, 0x29#8, 0x55#8]

/-- The payload `P[i] = i` of 256 bytes. -/
def fullPayload : List Byte := (List.range 256).map (BitVec.ofNat 8)

/-- A full payload buffer. -/
def full : State :=
  { State.reset with pcnt := 256#9, pbuf := (List.range 256).map fun i => (i, BitVec.ofNat 8 i) }

/-- The reset state with these requests outstanding. -/
def requesting (rs : List Request) : State := { State.reset with requests := rs }

/-- The reset state with the host agent at a point, after reads that returned `st` and `x`. -/
def agentAt (p : Point) (st x : Word) : State :=
  { State.reset with returned := [st, x], agent := { Agent.idle with point := p } }

/-- The host stands at `p`, with the words `st` and `x` to judge. -/
abbrev Judges (s : State) (p : Point) (st x : Word) : Prop :=
  s.requests = [] ∧ s.lastWords = some (st, x) ∧ s.agent.point = p

/-- The next state's last report has the property `p`. -/
def reports (o : Host.Outcome State Fault Refusal) (p : Report → Bool) : Bool := gives o fun t => t.agent.result.any p

/-! ### Ill-formed terms -/

theorem test_instr_wf : Instr.rxOne.wf = true := by decide
/-- 30_encoding R70: a transaction has 37 bits. -/
theorem test_txn_out_of_range : txnInRange (2 ^ 37) = false := by decide
theorem test_txn_in_range : txnInRange (2 ^ 37 - 1) = true := by decide
/-- 20_memory R55: another width, an unaligned offset, an offset of `0x40` or above. -/
theorem test_offset_width : offsetWf 0x04 2 = false := by decide
theorem test_offset_unaligned : offsetWf 0x02 4 = false := by decide
theorem test_offset_outside : offsetWf 0x40 4 = false := by decide
theorem test_offset_last : offsetWf 0x3C 4 = true := by decide
theorem test_bus_width (a : Nat) (d : Word) : BusAccess.wf { store := true, addr := a, width := 1, data := d } = false := by
  simp [BusAccess.wf, offsetWf]
theorem test_bus_below (h : 0 < Config.base) (d : Word) :
    BusAccess.wf { store := false, addr := Config.base - 1, width := 4, data := d } = false := by
  simp [BusAccess.wf]; omega
/-- 41_frame_codec R120: 1 to 256 payload bytes. -/
theorem test_segment_empty : Segment.wf { addr := 0#32, payload := [] } = false := by decide
theorem test_segment_long : Segment.wf { addr := 0#32, payload := List.replicate 257 0xFF#8 } = false := by
  decide +kernel
theorem test_segment_longest : Segment.wf { addr := 0#32, payload := List.replicate 256 0xFF#8 } = true := by
  decide +kernel

/-! ### Words written out from 30_encoding R70 to R74 (`rw`, `sel`, `data`), one per constructor -/

/-- Bit by bit: rw 1, sel 0000, data 32 zeros. -/
theorem test_decode_init : decode 0b1000000000000000000000000000000000000#37 = .op .init := by decide
/-- Bit by bit: rw 1, sel 0001, data 0000 0000 0000 0000 1111 1111 1111 1110. -/
theorem test_decode_crcSeed : decode 0b1000100000000000000001111111111111110#37 = .op (.crcSeed 0xFFFE#16) := by decide
theorem test_decode_crcByte : decode 0x1200000031#37 = .op (.crcByte 0x31#8) := by decide
/-- Bit by bit: rw 1, sel 0011, data 0001 0010 0011 0100 0101 0110 0111 1000. -/
theorem test_decode_frmAddr : decode 0b1001100010010001101000101011001111000#37 = .op (.frmAddr 0x12345678#32) := by decide
theorem test_decode_frmClr : decode 0x1400000000#37 = .op .frmClr := by decide
theorem test_decode_frmPush : decode 0x15000000AB#37 = .op (.frmPush 0xAB#8) := by decide
theorem test_decode_frmTx : decode 0x1600000000#37 = .op .frmTx := by decide
theorem test_decode_xchFrm : decode 0x1700000000#37 = .op .xchFrm := by decide
/-- Bit by bit: rw 1, sel 1000, data 24 ignored bits (here ones), then 0001 1001. -/
theorem test_decode_xchCmd : decode 0b1100011111111111111111111111100011001#37 = .op (.xchCmd 0x19#8) := by decide
theorem test_decode_txRaw : decode 0x190000005B#37 = .op (.txRaw 0x5B#8) := by decide
theorem test_decode_txFlush : decode 0x1A00000000#37 = .op .txFlush := by decide
theorem test_decode_rxOne : decode 0x1B00000000#37 = .op .rxOne := by decide
theorem test_decode_rdStatus : decode 0x0000000000#37 = .op .rdStatus := by decide
/-- Bit by bit: rw 0, sel 0001, data 32 zeros. -/
theorem test_decode_rdCrc : decode 0b0000100000000000000000000000000000000#37 = .op .rdCrc := by decide
theorem test_decode_rdAddr : decode 0x0300000000#37 = .op .rdAddr := by decide
theorem test_decode_rdPcnt : decode 0x0400000000#37 = .op .rdPcnt := by decide
theorem test_decode_rdXbyte : decode 0x0800000000#37 = .op .rdXbyte := by decide
theorem test_decode_reserved_write : decode 0x1C00000000#37 = .reservedWrite 0xC#4 := by decide
theorem test_decode_reserved_read : decode 0x0F00000000#37 = .reservedRead 0xF#4 := by decide
/-- 30_encoding R80: `CRC.SEED 0xFFFF` is `0x110000FFFF`. -/
theorem test_encode_crcSeed : encode (.crcSeed 0xFFFF#16) = 0x110000FFFF#37 := by decide
theorem test_encode_rdCrc : encode .rdCrc = 0x0100000000#37 := by decide
theorem test_table_word : decodeTableWord 37 0x1800000019 = some (.xchCmd 0x19#8) := by decide
theorem test_table_word_reserved : decodeTableWord 37 0x1C00000000 = none := by decide

/-! ### Single steps, with the results of 95_test_vectors -/

/-- B4: after a refusal and an exchange, `INIT` gives the reset values and issues no link event. -/
theorem test_init :
    gives (exec .init { loaded [some 0xAA#8] with fLen := true, res := .mismatch, rxb := 0xE5#8, rxv := true }) (fun t =>
      t.crc == 0xFFFF#16 && t.pcnt == 0#9 && statusWord t == 0#32 && xbyteWord t == 0#32 && t.events == [] &&
      t.answers == [some 0xAA#8]) = true := by decide

/-- 40_checksum R103: `CRC.SEED 0xABCD1234` sets `CRC = 0x1234`. -/
theorem test_crcSeed_upper_bits_ignored :
    gives (step (State.reset.withFetchWord 37 0x11ABCD1234)) (fun t => t.crc == 0x1234#16 && statusWord t == 0#32) = true := by
  decide

/-- B1.5: `CRC.BYTE 0x00` from reset gives `0xE1F0`. -/
theorem test_crcByte_zero_from_seed :
    gives (step (State.reset.withFetchWord 37 0x12FFFFFF00)) (fun t => t.crc == 0xE1F0#16) = true := by decide
/-- B1.3: the polynomial itself. -/
theorem test_crcByte_polynomial :
    gives (exec (.crcByte 0x01#8) { State.reset with crc := 0x0000#16 }) (fun t => t.crc == 0x1021#16) = true := by decide

/-- B2.3. -/
theorem test_frmAddr :
    gives (exec (.frmAddr 0x00008000#32) (answered [])) (fun t => addrWord t == 0x00008000#32 && statusWord t == 0#32) = true := by
  decide

/-- 41_frame_codec R125: `FRM.CLR` empties the payload and clears no flag. -/
theorem test_frmClr :
    gives (exec .frmClr { loaded [] with fOvf := true }) (fun t =>
      pcntWord t == 0#32 && t.pbufRead 0 == none && t.addr == 0x00008000#32 && t.fOvf) = true := by decide

/-- B2.3: the upper operand bits of a push are ignored. -/
theorem test_frmPush :
    gives (step (State.reset.withFetchWord 37 0x15FFFFFF7E)) (fun t =>
      t.pbufRead 0 == some 0x7E#8 && pcntWord t == 1#32 && statusWord t == 0#32) = true := by decide
/-- B2.5: the 257th push. -/
theorem test_frmPush_refused :
    gives (exec (.frmPush 0x99#8) full) (fun t =>
      pcntWord t == 0x100#32 && statusWord t == 0x406#32 && t.pbuf == full.pbuf) = true := by decide +kernel

/-- B2.4. -/
theorem test_frmTx :
    gives (exec .frmTx (loaded [])) (fun t =>
      t.events == loadedFrame.map .tx && t.crc == 0x5529#16 && statusWord t == 1#32 && t.pcnt == 4#9) = true := by decide +kernel
/-- B2.5: `FRM.TX` on an empty payload. -/
theorem test_frmTx_refused :
    gives (exec .frmTx { State.reset with crc := 0x1234#16 }) (fun t =>
      t.events == [] && t.crc == 0x1234#16 && statusWord t == 0x206#32) = true := by decide

/-- B3.3, oracle `E5`. -/
theorem test_xchFrm :
    gives (exec .xchFrm (loaded [some 0xE5#8])) (fun t =>
      t.events == loadedFrame.map .tx ++ [.flush, .rx (some 0xE5#8)] && statusWord t == 0x33#32 &&
      xbyteWord t == 0xE5AA#32 && t.crc == 0x5529#16 && t.answers == []) = true := by decide +kernel
/-- C7: a refused `XCH.FRM` writes no `EXP` and issues no link event. -/
theorem test_xchFrm_refused :
    gives (exec .xchFrm (answered [some 0xAA#8])) (fun t =>
      t.events == [] && statusWord t == 0x206#32 && xbyteWord t == 0#32 && t.answers == [some 0xAA#8]) = true := by decide

/-- B3.2, `XCH.CMD 0x19` answered by `19`, from its word. -/
theorem test_xchCmd :
    gives (step ((answered [some 0x19#8]).withFetchWord 37 0x1800000019)) (fun t =>
      t.events == [.tx 0x19#8, .flush, .rx (some 0x19#8)] && statusWord t == 0x3A#32 && xbyteWord t == 0x1919#32) = true := by
  decide
/-- B3.2, `XCH.CMD 0x00` with no answer. -/
theorem test_xchCmd_timeout :
    gives (exec (.xchCmd 0x00#8) (answered [none])) (fun t =>
      statusWord t == 4#32 && xbyteWord t == 0#32 && t.events == [.tx 0x00#8, .flush, .rx none]) = true := by decide

/-- 42_exchange R145: `TX.RAW 0x5B`, with a byte held. -/
theorem test_txRaw :
    gives (exec (.txRaw 0x5B#8) { State.reset with rxb := 0x11#8, rxv := true, exp := 0x11#8 }) (fun t =>
      t.events == [.tx 0x5B#8] && statusWord t == 0x39#32 && xbyteWord t == 0x1111#32) = true := by decide

/-- B4: from `STATUS = 0x306`, `TX.FLUSH` gives `0x301`. -/
theorem test_txFlush :
    gives (exec .txFlush { State.reset with fIll := true, fLen := true, res := .refused }) (fun t =>
      t.events == [.flush] && statusWord t == 0x301#32) = true := by decide

/-- 42_exchange R147: `RX.ONE` answered by `0xAE`. -/
theorem test_rxOne :
    gives (exec .rxOne (answered [some 0xAE#8])) (fun t =>
      t.events == [.rx (some 0xAE#8)] && statusWord t == 0x3D#32 && xbyteWord t == 0xAE00#32) = true := by decide
/-- B3.4: the held byte is cleared by a read that times out. -/
theorem test_rxOne_timeout :
    gives (exec .rxOne { answered [none] with rxb := 0xAA#8, rxv := true, res := .received }) (fun t =>
      statusWord t == 4#32 && xbyteWord t == 0#32) = true := by decide

/-- 43_system R171: after a refused `FRM.TX`. -/
theorem test_rdStatus :
    gives (exec .rdStatus { State.reset with fLen := true, res := .refused }) (fun t => t.returned == [0x206#32]) = true := by
  decide
/-- 43_system R172, from the word. -/
theorem test_rdCrc : gives (step (State.reset.withFetchWord 37 0x0100000000)) (fun t => t.returned == [0xFFFF#32]) = true := by
  decide
theorem test_rdAddr :
    gives (exec .rdAddr { State.reset with addr := 0x12345678#32 }) (fun t => t.returned == [0x12345678#32]) = true := by decide
theorem test_rdPcnt : gives (exec .rdPcnt full) (fun t => t.returned == [0x100#32]) = true := by decide
/-- 43_system R175: after `XCH.CMD 0x11` answered by `0x12`. -/
theorem test_rdXbyte :
    gives (exec .rdXbyte { State.reset with exp := 0x11#8, rxb := 0x12#8, rxv := true }) (fun t =>
      t.returned == [0x1211#32]) = true := by decide

/-- B4: a reserved write from `STATUS = 0x206` gives `0x306`. -/
theorem test_reserved_write :
    gives (step (({ State.reset with fLen := true, res := .refused } : State).withFetchWord 37 0x1C00000000)) (fun t =>
      statusWord t == 0x306#32 && t.events == []) = true := by decide
/-- B4: a reserved read returns zero. -/
theorem test_reserved_read :
    gives (step ((loaded []).withFetchWord 37 0x0500000000)) (fun t =>
      t.returned == [0#32] && statusWord t == 0#32 && t.pcnt == 4#9) = true := by decide

/-! ### Host-side functions (B5.1, B5.2) and sequences -/

theorem test_expectedCount :
    [0x00#8, 0x13#8, 0x1F#8, 0x77#8, 0x7F#8, 0xFF#8, 0x80#8, 0x0F#8, 0x70#8].map expectedCount = [0, 2, 4, 9, 12, 12, 0, 0, 0] := by
  decide
theorem test_targetCode :
    [0x11#8, 0x18#8, 0x28#8, 0x48#8, 0x31#8, 0x81#8, 0x13#8, 0xFF#8].map (fun c => (codeBoard c, codeTarget c)) =
      [(1, 1), (1, 4), (2, 4), (3, 4), (0, 1), (0, 1), (1, 0), (0, 0)] := by decide
theorem test_baudCode : (baudCode 115200, baudCode 115201) = (some 0x64#8, none) := by decide
/-- 44_host_sequences R194, the selector of B5.3: slots 1, 2, 3 of board 1. -/
theorem test_selector_lists :
    (boardList 0x17#8, targetList 0x17#8, boardList 0xC8#8, targetList 0xC8#8) = ([1], [1, 2, 3], [3], [4]) := by decide
/-- B5.4, `11 07`: outcome `0x07` is a version mismatch, and aborts; both bytes are reported. -/
theorem test_aggregator_version_mismatch :
    reports (step (agentAt (.targetOutcome 0x11#8 .receive) 0x3D#32 0x0700#32)) (fun r =>
      r.ending == .fatal .validationError none && r.kinds == [.validationError, .protocolDesync] &&
      r.raw == [0x11#8, 0x07#8]) = true := by decide
/-- 60_exceptions R233: a recognised error code in answer to the baud-change command is logged and reported as a TargetError. -/
theorem test_baud_change_error :
    gives (step (agentAt (.command 0x16#8 0 (.baudCode 0x64#8)) 0x33#32 0xE516#32)) (fun t =>
      t.agent.log == [.errorCode 0xE5#8 (descriptionOf 0xE5#8)] && t.agent.result.any (fun r =>
        r.ending == .fatal .protocolDesync (some 0x16#8) && r.kinds == [.protocolDesync, .targetError])) = true := by decide
/-- 60_exceptions R233: a malformed aggregation stream. -/
theorem test_aggregator_malformed :
    reports (step (agentAt (.targetOutcome 0x11#8 .finish) 4#32 0#32)) (fun r =>
      r.ending == .fatal .protocolDesync none && r.raw == [0x11#8]) = true := by decide
/-- 44_host_sequences R208: a response does not keep the loop from reading its token. -/
theorem test_aggregator_cancelled_after_response :
    reports (step { State.reset with
        returned := [0x2D#32, 0xAA00#32]
        agent := { Agent.idle with point := .targetOutcome 0x11#8 .finish, tokens := [true] } }) (fun r =>
      r.ending == .cancelled) = true := by decide
/-- 44_host_sequences R205: `FSL` ends the session in `Done`; the phase that ended recorded a duration (R200). -/
theorem test_flash_done :
    reports (step { State.reset with
        returned := [0x3D#32, 0xAE00#32]
        agent := { Agent.idle with point := .flashResult, phase := .awaitingFlashResult } }) (fun r =>
      r.ending == .success && r.state == .done && r.durations.map Prod.fst == [.awaitingFlashResult]) = true := by decide
/-- C4, answer `EA`: a recognised error code after the selector byte is fatal, and logged with its description (30_encoding R84). -/
theorem test_selection_error :
    gives (step (agentAt .selection 0x35#32 0xEA11#32)) (fun t =>
      t.agent.log == [.errorCode 0xEA#8 (descriptionOf 0xEA#8)] && t.agent.result.any (fun r =>
        r.ending == .fatal .targetError none && r.raw == [0xEA#8])) = true := by decide
/-- 60_exceptions R233: a refused push (`STATUS = 0x406`, B2.5) is the host's validation failure, and the frame is not sent. -/
theorem test_refused_load :
    gives (step (agentAt (.loaded .flash) 0x406#32 0#32)) (fun t =>
      t.requests == [] && t.agent.result.any (fun r => r.ending == .fatal .validationError none)) = true := by decide
/-- 60_exceptions R233: an out-of-range target address, by either reading of 91_not_in_source N15, is a ValidationError, and
nothing is loaded or sent. -/
theorem test_segment_out_of_range (g : Segment) (h : Config.segmentOutOfRange g.addr = true) :
    gives (.next (({ State.reset with agent := { Agent.idle with segments := [g] } } : State).nextSegment .flash)) (fun t =>
      t.requests == [] && t.agent.result.any (fun r => r.ending == .fatal .validationError none)) = true := by
  simp [gives, State.nextSegment, State.issueLoad, Agent.idle, h, State.fatal, State.conclude, State.reset]
/-- 60_exceptions R245, 70_reset_and_hazards R264: a transfer issues its `INIT` alone, and judges its first segment after it. -/
theorem test_transfer_waits_for_init :
    gives (step (agentAt (.start .transfer) 0#32 0#32)) (fun t =>
      t.requests == [.word (encode .init)] && t.agent.point == .segment .finish) = true := by decide
/-- Slot 1 of board 1 is selected by `0x11` (44_host_sequences R194). -/
theorem test_selector_out_of_range (h : Config.slotOutOfRange 1 1 = true) :
    selectsOutOfRange 0x11#8 = true ∧ selectsOutOfRange 0x10#8 = false := by
  simp [selectsOutOfRange, boardList, targetList, h]

/-- 60_exceptions R245: a failed transfer reports its phase and the byte that came. -/
theorem test_wrong_final_ack :
    reports (step { State.reset with
        returned := [0x3D#32, 0x0700#32]
        agent := { Agent.idle with point := .finalAck .flash, phase := .transferring, finalAck := 0xFA#8 } }) (fun r =>
      r.ending == .failed && r.kinds == [.protocolDesync] && r.phase == .transferring && r.raw == [0x07#8]) = true := by decide
/-- 60_exceptions R245: the next run begins with `INIT`. -/
theorem test_run_begins_with_init :
    gives (step (agentAt (.start (.session 0x13#8 9600)) 0#32 0#32)) (fun t =>
      t.requests.head? == some (.word (encode .init)) && t.agent.phase == .hostReset && t.agent.selector == 0x13#8) = true := by
  decide

/-! ### Witnesses: a state and operands that meet the hypotheses of each statement

A statement "if the instruction (or the step) gives a next state" has among its witnesses one in which it does. -/

theorem full_inv : Inv full := by
  refine ⟨by decide, ?_, by decide, by decide, by decide, by decide, by decide⟩
  simp [full, Function.comp_def]

theorem loaded_inv : Inv (loaded [some 0xAA#8]) := by decide

theorem witness_DecodeEncodeRoundTrip : (Instr.frmAddr 0xFFFFFFFF#32).wf = true := by decide

theorem witness_DecodingIsTotal :
    rwOf 0x12FFFFFF00#37 = rwOf 0x1200000000#37 ∧ selOf 0x12FFFFFF00#37 = selOf 0x1200000000#37 ∧
      (dataOf 0x12FFFFFF00#37).toNat % 2 ^ usedBits (selOf 0x12FFFFFF00#37) =
        (dataOf 0x1200000000#37).toNat % 2 ^ usedBits (selOf 0x12FFFFFF00#37) := by decide

/-- Another width; an offset that is no multiple of 4; the first offset past the window. -/
theorem witness_BusAccessIsItsTransaction_width :
    (¬ ∃ k, k < 16 ∧ (2 : Nat) = 4 ∧ Config.base = Config.base + 4 * k) ∧
      (requesting [.bus ⟨true, Config.base, 2, 0#32⟩]).requests = [.bus ⟨true, Config.base, 2, 0#32⟩] :=
  ⟨by rintro ⟨k, _, h, _⟩; omega, rfl⟩
theorem witness_BusAccessIsItsTransaction_offset :
    (¬ ∃ k, k < 16 ∧ (4 : Nat) = 4 ∧ Config.base + 2 = Config.base + 4 * k) ∧
      (requesting [.bus ⟨true, Config.base + 2, 4, 0#32⟩]).requests = [.bus ⟨true, Config.base + 2, 4, 0#32⟩] :=
  ⟨by rintro ⟨k, _, _, h⟩; omega, rfl⟩
theorem witness_BusAccessIsItsTransaction_past :
    (¬ ∃ k, k < 16 ∧ (4 : Nat) = 4 ∧ Config.base + 0x40 = Config.base + 4 * k) ∧
      (requesting [.bus ⟨false, Config.base + 0x40, 4, 0#32⟩]).requests = [.bus ⟨false, Config.base + 0x40, 4, 0#32⟩] :=
  ⟨by rintro ⟨k, _, _, h⟩; omega, rfl⟩

theorem witness_StepRunsDecodedInstruction :
    (requesting [.word 0x110000FFFF#37]).requests = [.word 0x110000FFFF#37] ∧
      (Request.word 0x110000FFFF#37).txn? = some 0x110000FFFF#37 ∧ decode 0x110000FFFF#37 = .op (.crcSeed 0xFFFF#16) := by decide

theorem witness_ReservedWriteIsRefused_first :
    0xC ≤ (0xC#4).toNat ∧ (requesting [.word (packTxn true 0xC#4 0#32)]).requests = [.word (packTxn true 0xC#4 0#32)] ∧
      (Request.word (packTxn true 0xC#4 0#32)).txn? = some (packTxn true 0xC#4 0#32) := by decide
theorem witness_ReservedWriteIsRefused_last :
    0xC ≤ (0xF#4).toNat ∧
      (requesting [.word (packTxn true 0xF#4 0xFFFFFFFF#32)]).requests = [.word (packTxn true 0xF#4 0xFFFFFFFF#32)] ∧
      (Request.word (packTxn true 0xF#4 0xFFFFFFFF#32)).txn? = some (packTxn true 0xF#4 0xFFFFFFFF#32) := by decide
/-- The bus store at offset `0x30`, and the bus load at offset `0x08` (30_encoding R79). -/
theorem witness_ReservedWriteIsRefused_bus (d : Word) :
    0xC ≤ (0xC#4).toNat ∧
      (requesting [.bus ⟨true, Config.base + 0x30, 4, d⟩]).requests = [.bus ⟨true, Config.base + 0x30, 4, d⟩] ∧
      (Request.bus ⟨true, Config.base + 0x30, 4, d⟩).txn? = some (packTxn true 0xC#4 d) :=
  ⟨by decide, rfl, by simp [Request.txn?, BusAccess.txn?, BusAccess.wf, offsetWf]⟩
theorem witness_ReservedReadReturnsZero_bus :
    0x2#4 ∈ [0x2#4, 0x5#4, 0x6#4, 0x7#4, 0x9#4, 0xA#4, 0xB#4, 0xC#4, 0xD#4, 0xE#4, 0xF#4] ∧
      (requesting [.bus ⟨false, Config.base + 0x08, 4, 0#32⟩]).requests = [.bus ⟨false, Config.base + 0x08, 4, 0#32⟩] ∧
      (Request.bus ⟨false, Config.base + 0x08, 4, 0#32⟩).txn? = some (packTxn false 0x2#4 0#32) :=
  ⟨by decide, rfl, by simp [Request.txn?, BusAccess.txn?, BusAccess.wf, offsetWf]⟩
theorem witness_ReservedReadReturnsZero :
    0x2#4 ∈ [0x2#4, 0x5#4, 0x6#4, 0x7#4, 0x9#4, 0xA#4, 0xB#4, 0xC#4, 0xD#4, 0xE#4, 0xF#4] ∧
      (requesting [.word (packTxn false 0x2#4 0#32)]).requests = [.word (packTxn false 0x2#4 0#32)] ∧
      (Request.word (packTxn false 0x2#4 0#32)).txn? = some (packTxn false 0x2#4 0#32) := by decide

/-- An idle host, and a host that begins a sequence. -/
theorem witness_NoTransactionNoChange_idle : State.reset.requests = [] ∧ step State.reset = .next State.reset := ⟨rfl, rfl⟩
theorem witness_NoTransactionNoChange_busy :
    (agentAt (.start .transfer) 0#32 0#32).requests = [] ∧ ∃ t, step (agentAt (.start .transfer) 0#32 0#32) = .next t :=
  ⟨rfl, _, rfl⟩

theorem witness_FrmPushAppends_full : full.pcnt.toNat = 256 := by decide
theorem witness_FrmPushAppends_empty : State.reset.pcnt.toNat < 256 := by decide
theorem witness_FrmPushAppends_last : ({ State.reset with pcnt := 255#9 } : State).pcnt.toNat < 256 := by decide

/-- An empty payload, a short one, the longest. -/
theorem witness_FrmTxSendsTheFrame_empty : State.reset.pcnt = 0#9 := by decide
theorem witness_FrmTxSendsTheFrame_short : Inv (loaded [some 0xAA#8]) ∧ (loaded [some 0xAA#8]).pcnt ≠ 0#9 :=
  ⟨loaded_inv, by decide⟩
theorem witness_FrmTxSendsTheFrame_longest : Inv full ∧ full.pcnt ≠ 0#9 := ⟨full_inv, by decide⟩

theorem witness_XchFrmExchangesFrame_empty : State.reset.pcnt = 0#9 := by decide
theorem witness_XchFrmExchangesFrame_longest : Inv full ∧ full.pcnt ≠ 0#9 := ⟨full_inv, by decide⟩
theorem witness_ExchangesAreCompositions : Inv (loaded [some 0xAA#8]) ∧ (loaded [some 0xAA#8]).pcnt ≠ 0#9 :=
  ⟨loaded_inv, by decide⟩

theorem witness_ReadTakesTheOracleAnswer_none : (answered [none]).answers = none :: [] := by decide
theorem witness_ReadTakesTheOracleAnswer_byte : (answered [some 0x00#8]).answers = some 0x00#8 :: [] := by decide

/-- The four outcomes. -/
theorem witness_OutcomeAgreesWithHeldByte_match :
    isReceiving .xchFrm = true ∧ refusal .xchFrm (loaded [some 0xAA#8]) = none ∧
      gives (exec .xchFrm (loaded [some 0xAA#8])) (fun t => t.res == .matched) = true := by decide
theorem witness_OutcomeAgreesWithHeldByte_mismatch :
    isReceiving (.xchCmd 0x19#8) = true ∧ refusal (.xchCmd 0x19#8) (answered [some 0x18#8]) = none ∧
      gives (exec (.xchCmd 0x19#8) (answered [some 0x18#8])) (fun t => t.res == .mismatch) = true := by decide
theorem witness_OutcomeAgreesWithHeldByte_timeout :
    isReceiving .rxOne = true ∧ refusal .rxOne (answered [none]) = none ∧
      gives (exec .rxOne (answered [none])) (fun t => t.res == .timeout) = true := by decide
theorem witness_OutcomeAgreesWithHeldByte_received :
    isReceiving .rxOne = true ∧ refusal .rxOne (answered [some 0x00#8]) = none ∧
      gives (exec .rxOne (answered [some 0x00#8])) (fun t => t.res == .received) = true := by decide

theorem witness_CrcBitIsFeedbackShift : 1 ≤ 15 ∧ 15 ≤ 15 ∧ 15 ≠ 5 ∧ 15 ≠ 12 := by decide

theorem witness_CrcDetectsOneChangedByte : 0x31#8 ≠ 0x30#8 := by decide

theorem witness_HostChecksumIsCrc16_seeded :
    (requesting [.word (encode (.crcSeed 0#16)), .word (encode (.crcByte 0x31#8)), .word (encode .rdCrc)]).requests =
      (.word (encode (.crcSeed 0#16)) :: [0x31#8].map fun b => .word (encode (.crcByte b))) ++ .word (encode .rdCrc) :: [] := by
  decide
theorem witness_HostChecksumIsCrc16_unseeded :
    (requesting [.word (encode (.crcByte 0x31#8)), .word (encode .rdCrc)]).requests =
      ([0x31#8].map fun b => .word (encode (.crcByte b))) ++ .word (encode .rdCrc) :: [] := by decide
theorem witness_HostChecksumIsCrc16_init : ∃ t, exec .init (loaded []) = .next t := ⟨_, rfl⟩

/-- The shortest and the longest payload. -/
theorem witness_FrameCarriesItsChecksum_shortest : 1 ≤ [0xAB#8].length ∧ [0xAB#8].length ≤ 256 := by decide
theorem witness_FrameCarriesItsChecksum_longest : 1 ≤ fullPayload.length ∧ fullPayload.length ≤ 256 := by
  simp [fullPayload]

theorem witness_FramePositionMap : 1 ≤ fullPayload.length ∧ fullPayload.length ≤ 256 := by simp [fullPayload]

theorem witness_FrameIsInjective :
    [0xAB#8].length ≤ 256 ∧ [0xAB#8].length ≤ 256 ∧ frameBytes 0xF800#32 [0xAB#8] = frameBytes 0xF800#32 [0xAB#8] :=
  ⟨by decide, by decide, rfl⟩

theorem witness_RetryNeedsNoReload_tx :
    Inv (loaded [some 0xAA#8]) ∧ (loaded [some 0xAA#8]).pcnt ≠ 0#9 ∧ ∃ t, exec .frmTx (loaded [some 0xAA#8]) = .next t :=
  ⟨loaded_inv, by decide, _, rfl⟩
theorem witness_RetryNeedsNoReload_xch :
    Inv (loaded [some 0xAA#8]) ∧ (loaded [some 0xAA#8]).pcnt ≠ 0#9 ∧ ∃ t, exec .xchFrm (loaded [some 0xAA#8]) = .next t :=
  ⟨loaded_inv, by decide, _, rfl⟩

theorem witness_ResetValues_init : ∃ s t, exec .init s = .next t := ⟨full, _, rfl⟩

/-- A step that transmits, one that pushes, one of the host agent. -/
theorem witness_StepKeepsInvariant_exchange :
    Inv ((loaded [some 0xAA#8]).withFetchWord 37 0x1700000000) ∧
      ∃ t, step ((loaded [some 0xAA#8]).withFetchWord 37 0x1700000000) = .next t := ⟨by decide, _, rfl⟩
theorem witness_StepKeepsInvariant_push :
    Inv (State.reset.withFetchWord 37 0x1500000001) ∧ Memory.wf (State.reset.withFetchWord 37 0x1500000001).pbuf = true ∧
      ∃ t, step (State.reset.withFetchWord 37 0x1500000001) = .next t := ⟨by decide, by decide, _, rfl⟩
theorem witness_StepKeepsInvariant_host :
    Inv (agentAt (.start (.command 0x19#8)) 0#32 0#32) ∧ ∃ t, step (agentAt (.start (.command 0x19#8)) 0#32 0#32) = .next t :=
  ⟨by decide, _, rfl⟩

theorem witness_StepKeepsMemoryCanonical :
    Memory.wf (full.withFetchWord 37 0x1400000000).pbuf = true ∧
      ∃ t, step (full.withFetchWord 37 0x1400000000) = .next t := ⟨by decide +kernel, _, rfl⟩
theorem witness_HistoryOnlyGrows : ∃ t, step ((loaded [none]).withFetchWord 37 0x1700000000) = .next t := ⟨_, rfl⟩

theorem witness_EveryOperationCompletes :
    Inv ((loaded [none]).withFetchWord 37 0x1C00000000) ∧
      ((loaded [none]).withFetchWord 37 0x1C00000000).requests = [.word 0x1C00000000#37] ∧
      (Request.word 0x1C00000000#37).txn? = some 0x1C00000000#37 := by decide

/-- A next state of an instruction of each shape. -/
theorem witness_AccessSummaryHolds_push : ∃ t, exec (.frmPush 0x01#8) (loaded []) = .next t := ⟨_, rfl⟩
/-- A push below 256 and frames with a payload are not refused. -/
theorem witness_AccessSummaryHolds_not_refused :
    refusal (.frmPush 0x01#8) (loaded []) = none ∧ refusal .frmTx (loaded []) = none ∧ refusal .xchFrm (loaded []) = none ∧
      ∃ t, exec .frmTx (loaded []) = .next t := ⟨by decide, by decide, by decide, _, rfl⟩
theorem witness_AccessSummaryHolds_readable : ∃ t, exec (.txRaw 0x5B#8) (loaded []) = .next t ∧ 3 < t.pcnt.toNat :=
  ⟨_, rfl, by decide⟩
theorem witness_AccessSummaryHolds_clear : ∃ t, exec .frmClr (loaded []) = .next t := ⟨_, rfl⟩
theorem witness_AccessSummaryHolds_exchange : ∃ t, exec (.xchCmd 0x19#8) (answered [none]) = .next t := ⟨_, rfl⟩
theorem witness_AccessSummaryHolds_read : ∃ t, exec .rdXbyte (answered []) = .next t := ⟨_, rfl⟩
theorem witness_PayloadBytesFrame_push : ∃ t, exec (.frmPush 0x01#8) (loaded []) = .next t := ⟨_, rfl⟩
theorem witness_OneReadPerReceivingOperation : ∃ t, exec .xchFrm (loaded [none]) = .next t := ⟨_, rfl⟩
theorem witness_PayloadBytesFrame_other_index :
    ¬((loaded []).pcnt.toNat < 256 ∧ 3 = (loaded []).pcnt.toNat) ∧ ¬(full.pcnt.toNat < 256 ∧ 256 = full.pcnt.toNat) := by decide

theorem witness_OnlyInitClears :
    (∃ t, step ({ full with requests := [.word 0x1A00000000#37], fOvf := true, res := .refused } : State) = .next t) ∧
      ∀ s', fetch { full with requests := [.word 0x1A00000000#37], fOvf := true, res := .refused } ≠ .txn (.op .init) s' :=
  ⟨⟨_, rfl⟩, fun s' h => by
    have : fetch { full with requests := [.word 0x1A00000000#37], fOvf := true, res := .refused } =
        .txn (.op .txFlush) { full with requests := [], fOvf := true, res := .refused } := rfl
    rw [this] at h
    injection h with h _
    injection h with h
    cases h⟩

theorem witness_RefusalsAreExact_overflow : refusal (.frmPush 0x99#8) full = some .ovf := by decide
theorem witness_RefusalsAreExact_length : refusal .frmTx (answered []) = some .len ∧ refusal .xchFrm (answered []) = some .len := by
  decide
theorem witness_RefusalsAreExact_none :
    refusal .frmTx (loaded []) = none ∧ Instr.frmTx ≠ .init ∧ ∃ t, exec .frmTx (loaded []) = .next t :=
  ⟨by decide, by decide, _, rfl⟩

theorem witness_ReadsAreFreeOfSideEffects : Instr.rdStatus.isWrite = false := by decide
theorem witness_FourWritesAreIdempotent :
    (Instr.crcSeed 0x1234#16) = .init ∨ (Instr.crcSeed 0x1234#16) = .frmClr ∨ (∃ v, (Instr.crcSeed 0x1234#16) = .frmAddr v) ∨
      ∃ v, (Instr.crcSeed 0x1234#16) = .crcSeed v := .inr (.inr (.inr ⟨_, rfl⟩))

theorem witness_TargetAddressBook : 2 < 3 ∧ 3 < 4 := by decide

/-- The first attempt, and the fifth. -/
theorem witness_HandshakeSucceedsWithinFive_first :
    ∃ s : State, 0 ≤ 4 ∧ s.requests = [] ∧ s.agent.point = .start (.command 0x19#8) ∧
      s.answers = List.replicate 0 none ++ some 0x19#8 :: [] :=
  ⟨{ agentAt (.start (.command 0x19#8)) 0#32 0#32 with answers := [some 0x19#8] }, by decide, rfl, rfl, rfl⟩
theorem witness_HandshakeSucceedsWithinFive_fifth :
    ∃ s : State, 4 ≤ 4 ∧ s.requests = [] ∧ s.agent.point = .start (.command 0x19#8) ∧
      s.answers = List.replicate 4 none ++ some 0x19#8 :: [] :=
  ⟨{ agentAt (.start (.command 0x19#8)) 0#32 0#32 with answers := [none, none, none, none, some 0x19#8] },
    by decide, rfl, rfl, rfl⟩
theorem witness_HandshakeFailsFatally_timeouts :
    ∃ s : State, s.requests = [] ∧ s.agent.point = .start (.command 0x19#8) ∧ s.answers = List.replicate 5 none ++ [] :=
  ⟨{ agentAt (.start (.command 0x19#8)) 0#32 0#32 with answers := [none, none, none, none, none] }, rfl, rfl, rfl⟩
theorem witness_HandshakeFailsFatally_wrong_byte :
    ∃ s : State, 1 ≤ 4 ∧ 0x18#8 ≠ 0x19#8 ∧ s.requests = [] ∧ s.agent.point = .start (.command 0x19#8) ∧
      s.answers = List.replicate 1 none ++ some 0x18#8 :: [] :=
  ⟨{ agentAt (.start (.command 0x19#8)) 0#32 0#32 with answers := [none, some 0x18#8] }, by decide, by decide, rfl, rfl, rfl⟩

/-- A handshake after four timeouts, and a step of it. -/
theorem witness_AttemptsStayBelowFive :
    (∀ cmd n k, (agentAt (.command 0x19#8 4 .finish) 4#32 0x19#32).agent.point = .command cmd n k → n < 5) ∧
      ∃ t, step (agentAt (.command 0x19#8 4 .finish) 4#32 0x19#32) = .next t :=
  ⟨fun cmd n k h => by
    have h' : Point.command 0x19#8 4 .finish = .command cmd n k := h
    injection h' with _ hn _
    omega, _, rfl⟩

theorem witness_SegmentsAdvanceOnlyOnMatch : ∃ t, step (agentAt (.frame .finish) 0x2A#32 0xAAAA#32) = .next t := ⟨_, rfl⟩

theorem witness_TransferRetriesSameSegment_cancelled :
    ∃ s : State, s.requests = [] ∧ s.agent.point = .frame .flash ∧ s.lastWords = some (4#32, 0xAA#32) ∧
      statusRes 4#32 = resCode .timeout ∧ s.agent.tokens.head? = some true :=
  ⟨{ State.reset with
      returned := [4#32, 0xAA#32], agent := { Agent.idle with point := .frame .flash, tokens := [true] } }, by decide⟩
theorem witness_TransferRetriesSameSegment_timeout :
    (agentAt (.frame .finish) 4#32 0xAA#32).requests = [] ∧ (agentAt (.frame .finish) 4#32 0xAA#32).agent.point = .frame .finish ∧
      (agentAt (.frame .finish) 4#32 0xAA#32).lastWords = some (4#32, 0xAA#32) ∧ statusRes 4#32 = resCode .timeout := by decide
theorem witness_TransferRetriesSameSegment_mismatch :
    (agentAt (.frame .flash) 0x33#32 0xE5AA#32).requests = [] ∧
      (agentAt (.frame .flash) 0x33#32 0xE5AA#32).agent.point = .frame .flash ∧
      (agentAt (.frame .flash) 0x33#32 0xE5AA#32).lastWords = some (0x33#32, 0xE5AA#32) ∧
      statusRes 0x33#32 = resCode .mismatch := by decide

/-- After the final acknowledgement (here `FINAL_ACK` is 0) the flash command is issued. -/
theorem witness_FlashCommandOnlyAfterFinalAck :
    (agentAt (.finalAck .flash) 0x3D#32 0x0000#32).requests = [] ∧
      gives (step (agentAt (.finalAck .flash) 0x3D#32 0x0000#32)) (fun t =>
        t.requests.contains (.word (encode (.xchCmd Config.cmdFlashImage)))) = true := by decide

/-- After an attempt of it that timed out the flash command is issued again. -/
theorem witness_FlashCommandOnlyAfterFinalAck_again :
    (agentAt (.command Config.cmdFlashImage 0 .flashResult) 4#32 0x15#32).requests = [] ∧
      gives (step (agentAt (.command Config.cmdFlashImage 0 .flashResult) 4#32 0x15#32)) (fun t =>
        t.requests.contains (.word (encode (.xchCmd Config.cmdFlashImage)))) = true := by decide

theorem witness_UnsupportedBaudIsRejected :
    (agentAt .selection 0x2D#32 0xAA11#32).requests = [] ∧ (agentAt .selection 0x2D#32 0xAA11#32).agent.point = .selection ∧
      (agentAt .selection 0x2D#32 0xAA11#32).lastWords = some (0x2D#32, 0xAA11#32) ∧ statusRes 0x2D#32 = resCode .received ∧
      statusRcls 0x2D#32 = rclassCode .ack ∧
      (agentAt .selection 0x2D#32 0xAA11#32).agent.baud ∉ [9600, 19200, 38400, 57600, 115200, 230400, 460800, 921600] := by decide

/-- One for each clause. -/
theorem witness_AggregatorCollects_wait :
    Judges (agentAt (.targetCode .finish) 4#32 0#32) (.targetCode .finish) 4#32 0#32 ∧
      statusRes 4#32 = resCode .timeout := by decide
theorem witness_AggregatorCollects_code :
    Judges (agentAt (.targetCode .finish) 0x3D#32 0x1100#32) (.targetCode .finish) 0x3D#32 0x1100#32 ∧
      statusRes 0x3D#32 = resCode .received ∧ xbyteRxb 0x1100#32 ≠ 0xAC#8 := by decide
theorem witness_AggregatorCollects_wrong_count :
    ∃ s : State, Judges s (.targetCode .receive) 0x3D#32 0xAC00#32 ∧
      statusRes 0x3D#32 = resCode .received ∧ xbyteRxb 0xAC00#32 = 0xAC#8 ∧
      s.agent.collected.length ≠ expectedCount s.agent.selector :=
  ⟨{ State.reset with
      returned := [0x3D#32, 0xAC00#32], agent := { Agent.idle with point := .targetCode .receive, selector := 0x13#8 } },
    by decide⟩
theorem witness_AggregatorCollects_right_count :
    ∃ s : State, Judges s (.targetCode .receive) 0x3D#32 0xAC00#32 ∧
      statusRes 0x3D#32 = resCode .received ∧ xbyteRxb 0xAC00#32 = 0xAC#8 ∧
      s.agent.collected.length = expectedCount s.agent.selector :=
  ⟨{ State.reset with
      returned := [0x3D#32, 0xAC00#32]
      agent := { Agent.idle with point := .targetCode .receive, selector := 0x11#8, collected := [⟨1, 1, .acked, 0⟩] } },
    by decide⟩
theorem witness_AggregatorCollects_abort :
    Judges (agentAt (.targetOutcome 0x11#8 .receive) 4#32 0#32) (.targetOutcome 0x11#8 .receive) 4#32 0#32 ∧
      statusRes 4#32 = resCode .timeout := by decide
theorem witness_AggregatorCollects_acked :
    Judges (agentAt (.targetOutcome 0x11#8 .receive) 0x2D#32 0xAA00#32) (.targetOutcome 0x11#8 .receive) 0x2D#32 0xAA00#32 ∧
      statusRes 0x2D#32 = resCode .received ∧ xbyteRxb 0xAA00#32 = 0xAA#8 := by decide
theorem witness_AggregatorCollects_notAcked :
    Judges (agentAt (.targetOutcome 0x11#8 .receive) 0x35#32 0xEE00#32) (.targetOutcome 0x11#8 .receive) 0x35#32 0xEE00#32 ∧
      statusRes 0x35#32 = resCode .received ∧ xbyteRxb 0xEE00#32 = 0xEE#8 := by decide
theorem witness_AggregatorCollects_notConnected :
    Judges (agentAt (.targetOutcome 0x11#8 .receive) 0x3D#32 0#32) (.targetOutcome 0x11#8 .receive) 0x3D#32 0#32 ∧
      statusRes 0x3D#32 = resCode .received ∧ xbyteRxb 0#32 = 0x00#8 := by decide
theorem witness_AggregatorCollects_mismatch :
    Judges (agentAt (.targetOutcome 0x11#8 .receive) 0x3D#32 0x0700#32) (.targetOutcome 0x11#8 .receive) 0x3D#32 0x0700#32 ∧
      statusRes 0x3D#32 = resCode .received ∧ xbyteRxb 0x0700#32 ≠ 0xAA#8 ∧
      xbyteRxb 0x0700#32 ≠ 0xEE#8 ∧ xbyteRxb 0x0700#32 ≠ 0x00#8 := by decide
theorem witness_AggregatorCollects_error_code :
    Judges (agentAt (.targetOutcome 0x11#8 .receive) 0x35#32 0xE500#32) (.targetOutcome 0x11#8 .receive) 0x35#32 0xE500#32 ∧
      statusRes 0x35#32 = resCode .received ∧ xbyteRxb 0xE500#32 ≠ 0xAA#8 ∧
      xbyteRxb 0xE500#32 ≠ 0xEE#8 ∧ xbyteRxb 0xE500#32 ≠ 0x00#8 ∧ statusRcls 0x35#32 = rclassCode .terr := by decide

end Sys2Proof.Tests
end

section
/-! The scope of a step (00_scope R6, R7): what a step is when a decoded instruction is fetched, and that a move of the host agent
reaches neither the block nor the link. -/

namespace Sys2Proof.Laws

open Sys2Proof.Machine Sys2Proof.Safety

theorem HostOnly.sameBlock {s t : State} (h : HostOnly s t) : SameBlock s t := by
  obtain ⟨_, _, rfl⟩ := h
  exact ⟨rfl, rfl, rfl, rfl, rfl, rfl, rfl, rfl, rfl, rfl, rfl⟩

theorem HostOnly.sameLink {s t : State} (h : HostOnly s t) : SameLink s t := by
  obtain ⟨_, _, rfl⟩ := h
  exact ⟨rfl, rfl⟩

theorem HostOnly.returned_eq {s t : State} (h : HostOnly s t) : t.returned = s.returned := by
  obtain ⟨_, _, rfl⟩ := h
  rfl

/-- A fetched instruction runs as its meaning, on the state the fetch leaves. -/
theorem step_of_fetch_op {s s' : State} {i : Instr} (h : fetch s = .txn (.op i) s') : step s = exec i s' := by
  unfold step
  rw [h]

/-- Settles O9: with no request a step is a move of the host agent, and such a move is `HostOnly`. -/
theorem noTransactionNoChange : Obligations.NoTransactionNoChange := by
  intro s t hnone hstep
  have hmove : agentStep s = .next t := step_of_no_request hnone ▸ hstep
  have hhost : HostOnly s t := agentStep_hostOnly hmove
  exact ⟨hhost.sameBlock, hhost.sameLink, hhost.returned_eq⟩

/-- Settles O6: the fetch takes the request off the list and decodes it, and the step runs what was decoded. -/
theorem stepRunsDecodedInstruction : Obligations.StepRunsDecodedInstruction := by
  intro s r rest t i hreq htxn hdec
  have hfetch : fetch s = .txn (.op i) { s with requests := rest } := hdec ▸ fetch_txn hreq htxn
  exact step_of_fetch_op hfetch

end Sys2Proof.Laws
end

section
/-! SUPPORT. What an instruction does, with its cases named (`exec_cases` as an inductive relation); what that is for the payload
and for the held byte; and how a property of the block that every instruction keeps is kept by every step. -/

namespace Sys2Proof.Laws

open Sys2Proof.Machine

/-- `ExecEffect s i t`: from `s` the instruction `i` may lead to `t`; one constructor per outcome, refusals among them. -/
inductive ExecEffect (s : State) : Instr → State → Prop
  | init : ExecEffect s .init s.resetBlock
  | crcSeed (v : BitVec 16) : ExecEffect s (.crcSeed v) { s with crc := v }
  | crcByte (v : Byte) : ExecEffect s (.crcByte v) (s.absorb v)
  | frmAddr (v : Word) : ExecEffect s (.frmAddr v) { s with addr := v }
  | frmClr : ExecEffect s .frmClr { s with pcnt := 0#9, pbuf := [] }
  | pushFull (v : Byte) (hfull : s.pcnt.toNat = 256) : ExecEffect s (.frmPush v) (s.refuse .ovf)
  | push (v : Byte) (hroom : s.pcnt.toNat < 256) :
      ExecEffect s (.frmPush v) { s with pbuf := Memory.write s.pbuf s.pcnt.toNat v, pcnt := s.pcnt + 1#9 }
  | frmTxEmpty (hempty : s.pcnt.toNat = 0) : ExecEffect s .frmTx (s.refuse .len)
  | xchFrmEmpty (hempty : s.pcnt.toNat = 0) : ExecEffect s .xchFrm (s.refuse .len)
  | frmTx (k : Crc) (bs : List Byte) (hloaded : s.pcnt.toNat ≠ 0) :
      ExecEffect s .frmTx { s with crc := k, res := .sent, events := s.events ++ bs.map .tx }
  | xchFrm (k : Crc) (bs : List Byte) (a : Option Byte) (hloaded : s.pcnt.toNat ≠ 0) :
      ExecEffect s .xchFrm { s with
        crc := k, exp := 0xAA#8, rxv := a.isSome, rxb := a.getD 0, res := judge 0xAA#8 a,
        answers := s.answers.tail, events := s.events ++ (bs.map .tx ++ [.flush, .rx a]) }
  | xchCmd (c : Byte) (a : Option Byte) :
      ExecEffect s (.xchCmd c) { s with
        exp := c, rxv := a.isSome, rxb := a.getD 0, res := judge c a,
        answers := s.answers.tail, events := s.events ++ ([c].map .tx ++ [.flush, .rx a]) }
  | txRaw (c : Byte) : ExecEffect s (.txRaw c) { s with res := .sent, events := s.events ++ [.tx c] }
  | txFlush : ExecEffect s .txFlush { s with res := .sent, events := s.events ++ [.flush] }
  | rxOne (a : Option Byte) :
      ExecEffect s .rxOne { s with
        rxv := a.isSome, rxb := a.getD 0, res := judgeRaw a,
        answers := s.answers.tail, events := s.events ++ [.rx a] }
  | read {i : Instr} (w : Word) (hread : i.isWrite = false) : ExecEffect s i (s.returnWord w)

/-- Whatever an instruction does is one of the named effects. -/
theorem exec_effect {i : Instr} {s t : State} (h : exec i s = .next t) : ExecEffect s i t := by
  obtain ⟨rfl, rfl⟩ | ⟨v, rfl, rfl⟩ | ⟨v, rfl, rfl⟩ | ⟨v, rfl, rfl⟩ | ⟨rfl, rfl⟩ | ⟨v, rfl, hfull, rfl⟩ | ⟨v, rfl, hroom, rfl⟩ |
    ⟨rfl | rfl, hempty, rfl⟩ | ⟨k, bs, rfl, hloaded, rfl⟩ | ⟨k, bs, a, rfl, hloaded, rfl⟩ | ⟨c, a, rfl, rfl⟩ | ⟨c, rfl, rfl⟩ |
    ⟨rfl, rfl⟩ | ⟨a, rfl, rfl⟩ | ⟨w, hread, rfl⟩ := exec_cases h
  · exact .init
  · exact .crcSeed v
  · exact .crcByte v
  · exact .frmAddr v
  · exact .frmClr
  · exact .pushFull v hfull
  · exact .push v hroom
  · exact .frmTxEmpty hempty
  · exact .xchFrmEmpty hempty
  · exact .frmTx k bs hloaded
  · exact .xchFrm k bs a hloaded
  · exact .xchCmd c a
  · exact .txRaw c
  · exact .txFlush
  · exact .rxOne a
  · exact .read w hread

/-- The payload count and buffer: only `INIT` and `FRM.CLR` empty them, and only an accepted `FRM.PUSH` adds an entry. -/
theorem exec_buffer {i : Instr} {s t : State} (h : exec i s = .next t) :
    (i ≠ .init ∧ i ≠ .frmClr ∧ t.pcnt = s.pcnt ∧ t.pbuf = s.pbuf) ∨
    ((i = .init ∨ i = .frmClr) ∧ t.pcnt = 0#9 ∧ t.pbuf = []) ∨
    (∃ b, i = .frmPush b ∧ s.pcnt.toNat < 256 ∧ t.pcnt = s.pcnt + 1#9 ∧ t.pbuf = Memory.write s.pbuf s.pcnt.toNat b) := by
  cases exec_effect h
  case init => exact .inr (.inl ⟨.inl rfl, rfl, rfl⟩)
  case frmClr => exact .inr (.inl ⟨.inr rfl, rfl, rfl⟩)
  case push b hroom => exact .inr (.inr ⟨b, rfl, hroom, rfl, rfl⟩)
  case read w hread =>
    refine .inl ⟨?_, ?_, rfl, rfl⟩ <;> rintro rfl <;> cases hread
  all_goals exact .inl ⟨nofun, nofun, rfl, rfl⟩

/-- The held byte and the outcome: an instruction that receives nothing leaves the byte and may set `RES` to SENT or REFUSED;
`INIT` resets them; a receiving one holds its answer and judges it. -/
theorem exec_held {i : Instr} {s t : State} (h : exec i s = .next t) :
    (t.exp = s.exp ∧ t.rxb = s.rxb ∧ t.rxv = s.rxv ∧ (t.res = s.res ∨ t.res = .sent ∨ t.res = .refused)) ∨
    (i = .init ∧ t.rxb = 0x00#8 ∧ t.rxv = false ∧ t.res = .none) ∨
    (∃ a, t.rxb = a.getD 0x00#8 ∧ t.rxv = a.isSome ∧ (t.res = judge t.exp a ∨ t.res = judgeRaw a)) := by
  cases exec_effect h
  case init => exact .inr (.inl ⟨rfl, rfl, rfl, rfl⟩)
  case xchFrm k bs a hloaded => exact .inr (.inr ⟨a, rfl, rfl, .inl rfl⟩)
  case xchCmd c a => exact .inr (.inr ⟨a, rfl, rfl, .inl rfl⟩)
  case rxOne a => exact .inr (.inr ⟨a, rfl, rfl, .inr rfl⟩)
  case pushFull | frmTxEmpty | xchFrmEmpty => exact .inl ⟨rfl, rfl, rfl, .inr (.inr rfl)⟩
  case frmTx | txRaw | txFlush => exact .inl ⟨rfl, rfl, rfl, .inr (.inl rfl)⟩
  all_goals exact .inl ⟨rfl, rfl, rfl, .inl rfl⟩

/-- A property of the block is kept by every step when it does not depend on the host's side and is kept by a refused reserved
write and by every instruction. -/
theorem step_keeps {P : State → Prop}
    (hhost : ∀ s reqs words agent, P s → P { s with requests := reqs, returned := words, agent := agent })
    (hrefuse : ∀ s, P s → P (s.refuse .ill))
    (hexec : ∀ i s t, P s → exec i s = .next t → P t)
    {s t : State} (hs : P s) (h : step s = .next t) : P t := by
  obtain ⟨-, hmove⟩ | ⟨_, rest, _, -, -, htxn⟩ := step_cases h
  · obtain ⟨reqs, agent, rfl⟩ := agentStep_hostOnly hmove
    exact hhost s _ s.returned agent hs
  · have htaken : P { s with requests := rest } := hhost s rest s.returned s.agent hs
    obtain ⟨i, -, hi⟩ | ⟨-, hw⟩ | ⟨-, hr⟩ := htxn
    · exact hexec i _ t htaken hi
    · cases hw; exact hrefuse _ htaken
    · cases hr; exact hhost s rest _ s.agent hs

end Sys2Proof.Laws
end

section
/-! The invariants of the block (10_state R29, R39, R40; 42_exchange R153): each is kept by every instruction, and so by every
step. The invariant of reachable states is in two parts that no operation ties together: the payload and the held byte. -/

namespace Sys2Proof.Laws

open Sys2Proof.Machine Sys2Proof.Safety

/-- The part of the invariant about the payload: exactly the entries below `PCNT` hold a value. -/
def PayloadInv (s : State) : Prop := s.pcnt.toNat ≤ 256 ∧ s.pbuf.map Prod.fst = List.range s.pcnt.toNat

/-- The part of the invariant about the held byte: `RXB` is zero with `RXV = 0`, and `RES` agrees with it. -/
def HeldInv (s : State) : Prop :=
  (s.rxv = false → s.rxb = 0x00#8) ∧
  (s.res = .matched → s.rxv = true ∧ s.rxb = s.exp) ∧
  (s.res = .mismatch → s.rxv = true ∧ s.rxb ≠ s.exp) ∧
  (s.res = .timeout → s.rxv = false) ∧
  (s.res = .received → s.rxv = true)

theorem inv_iff (s : State) : Inv s ↔ PayloadInv s ∧ HeldInv s := and_assoc.symm

/-- A count below 256 does not wrap when it is raised. -/
theorem pcnt_succ_toNat {n : BitVec 9} (h : n.toNat < 256) : (n + 1#9).toNat = n.toNat + 1 := by
  rw [BitVec.toNat_add]
  exact Nat.mod_eq_of_lt (Nat.lt_trans (Nat.succ_lt_succ h) (by decide))

theorem exec_keeps_payloadInv {i : Instr} {s t : State} (hs : PayloadInv s) (h : exec i s = .next t) : PayloadInv t := by
  obtain ⟨hle, hkeys⟩ := hs
  unfold PayloadInv
  obtain ⟨-, -, hcnt, hbuf⟩ | ⟨-, hcnt, hbuf⟩ | ⟨b, -, hroom, hcnt, hbuf⟩ := exec_buffer h
  · rw [hcnt, hbuf]
    exact ⟨hle, hkeys⟩
  · rw [hcnt, hbuf]
    exact ⟨by decide, rfl⟩
  · rw [hcnt, hbuf, pcnt_succ_toNat hroom]
    exact ⟨hroom, memory_write_keys s.pbuf s.pcnt.toNat b hkeys⟩

/-- An outcome that is SENT, REFUSED or as before says nothing new of a held byte that is as before. -/
theorem heldInv_of_kept {s t : State} (hs : HeldInv s) (hexp : t.exp = s.exp) (hrxb : t.rxb = s.rxb) (hrxv : t.rxv = s.rxv)
    (hres : t.res = s.res ∨ t.res = .sent ∨ t.res = .refused) : HeldInv t := by
  unfold HeldInv
  rw [hexp, hrxb, hrxv]
  obtain hres | hres | hres := hres <;> rw [hres]
  · exact hs
  · exact ⟨hs.1, nofun, nofun, nofun, nofun⟩
  · exact ⟨hs.1, nofun, nofun, nofun, nofun⟩

/-- A received answer that is held agrees with its judgement, against the expected byte or without one. -/
theorem heldInv_of_received {t : State} {a : Option Byte} (hrxb : t.rxb = a.getD 0x00#8) (hrxv : t.rxv = a.isSome)
    (hres : t.res = judge t.exp a ∨ t.res = judgeRaw a) : HeldInv t := by
  unfold HeldInv
  rw [hrxb, hrxv]
  cases a with
  | none =>
    have htimeout : t.res = .timeout := hres.elim id id
    simp [htimeout]
  | some b =>
    obtain hres | hres := hres
    · by_cases hb : b = t.exp
      · simp [hres, judge, hb]
      · simp [hres, judge, hb]
    · simp [hres, judgeRaw]

theorem exec_keeps_heldInv {i : Instr} {s t : State} (hs : HeldInv s) (h : exec i s = .next t) : HeldInv t := by
  obtain ⟨hexp, hrxb, hrxv, hres⟩ | ⟨-, hrxb, hrxv, hres⟩ | ⟨a, hrxb, hrxv, hres⟩ := exec_held h
  · exact heldInv_of_kept hs hexp hrxb hrxv hres
  · simp [HeldInv, hrxb, hrxv, hres]
  · exact heldInv_of_received hrxb hrxv hres

theorem refuse_keeps_heldInv {s : State} (hs : HeldInv s) (f : RefusalFlag) : HeldInv (s.refuse f) :=
  heldInv_of_kept hs (refuse_exp s f) (refuse_rxb s f) (refuse_rxv s f) (.inr (.inr rfl))

theorem step_keeps_payloadInv {s t : State} (hs : PayloadInv s) (h : step s = .next t) : PayloadInv t :=
  step_keeps (fun _ _ _ _ hs => hs) (fun _ hs => hs) (fun _ _ _ => exec_keeps_payloadInv) hs h

theorem step_keeps_heldInv {s t : State} (hs : HeldInv s) (h : step s = .next t) : HeldInv t :=
  step_keeps (fun _ _ _ _ hs => hs) (fun _ hs => refuse_keeps_heldInv hs .ill) (fun _ _ _ => exec_keeps_heldInv) hs h

/-- Settles O41: each of the two parts of the invariant is kept by a step. -/
theorem stepKeepsInvariant : Obligations.StepKeepsInvariant := by
  intro s t hs hstep
  obtain ⟨hpayload, hheld⟩ := (inv_iff s).mp hs
  exact (inv_iff t).mpr ⟨step_keeps_payloadInv hpayload hstep, step_keeps_heldInv hheld hstep⟩

theorem exec_keeps_memory_wf {i : Instr} {s t : State} (hs : Memory.wf s.pbuf = true) (h : exec i s = .next t) :
    Memory.wf t.pbuf = true := by
  obtain ⟨-, -, -, hbuf⟩ | ⟨-, -, hbuf⟩ | ⟨b, -, -, -, hbuf⟩ := exec_buffer h
  · exact hbuf ▸ hs
  · exact hbuf ▸ memory_wf_nil
  · exact hbuf ▸ memory_write_wf s.pbuf s.pcnt.toNat b hs

/-- Settles O42: an instruction leaves the memory, empties it, or writes one entry, which keeps the canonical form. -/
theorem stepKeepsMemoryCanonical : Obligations.StepKeepsMemoryCanonical := fun _ _ hs hstep =>
  step_keeps (P := fun s => Memory.wf s.pbuf = true) (fun _ _ _ _ hs => hs) (fun _ hs => hs)
    (fun _ _ _ => exec_keeps_memory_wf) hs hstep

end Sys2Proof.Laws
end

section
/-! What an instruction leaves as it was (10_state R24, R29, R42), column by column of the access summary, the frame on the payload
memory, and what only `INIT` undoes. -/

namespace Sys2Proof.Laws

open Sys2Proof.Machine Sys2Proof.Safety

/-- The columns `CRC`, `ADDR`, `PCNT` and `EXP` of the access summary. -/
theorem exec_frame_registers {i : Instr} {s t : State} (h : exec i s = .next t) :
    (writesCrc i = false → t.crc = s.crc) ∧ (writesAddr i = false → t.addr = s.addr) ∧
    (writesPcnt i = false → t.pcnt = s.pcnt) ∧ (writesExp i = false → t.exp = s.exp) := by
  cases exec_effect h <;> simp [writesCrc, writesAddr, writesPcnt, writesExp]

/-- The columns `RXB,RXV` and `RES`. -/
theorem exec_frame_held {i : Instr} {s t : State} (h : exec i s = .next t) :
    (writesHeld i = false → t.rxb = s.rxb ∧ t.rxv = s.rxv) ∧ (writesRes i = false → t.res = s.res) := by
  cases exec_effect h <;> simp [writesHeld, writesRes]

/-- The columns of the sticky flags: a refusal raises the one flag its row marks. -/
theorem exec_frame_flags {i : Instr} {s t : State} (h : exec i s = .next t) :
    (writesFIll i = false → t.fIll = s.fIll) ∧ (writesFLen i = false → t.fLen = s.fLen) ∧
    (writesFOvf i = false → t.fOvf = s.fOvf) := by
  cases exec_effect h <;> simp [writesFIll, writesFLen, writesFOvf, refuse_flags]

/-- Entries are read alike where count and cells are alike. -/
theorem pbufRead_congr {s t : State} (hcnt : t.pcnt = s.pcnt) (hbuf : t.pbuf = s.pbuf) (a : Nat) :
    t.pbufRead a = s.pbufRead a := by
  simp only [State.pbufRead, hcnt, hbuf]

/-- With a count of zero no entry is readable. -/
theorem pbufRead_of_pcnt_zero {s : State} (hcnt : s.pcnt = 0#9) (a : Nat) : s.pbufRead a = none := by
  simp [State.pbufRead, hcnt]

/-- An accepted push leaves every entry but the one it writes. -/
theorem pbufRead_of_push {s t : State} {b : Byte} (hroom : s.pcnt.toNat < 256) (hcnt : t.pcnt = s.pcnt + 1#9)
    (hbuf : t.pbuf = Memory.write s.pbuf s.pcnt.toNat b) {a : Nat} (ha : a ≠ s.pcnt.toNat) :
    t.pbufRead a = s.pbufRead a := by
  have hbelow : a < s.pcnt.toNat + 1 ↔ a < s.pcnt.toNat := by omega
  simp only [State.pbufRead, hcnt, hbuf, pcnt_succ_toNat hroom, hbelow, memory_read_write_other s.pbuf b ha]

/-- The column `PBUF`: what is readable afterwards reads as before. -/
theorem exec_frame_pbuf {i : Instr} {s t : State} (h : exec i s = .next t) (hi : writesPbuf i = false) (a : Nat)
    (ha : a < t.pcnt.toNat) : t.pbufRead a = s.pbufRead a := by
  obtain ⟨-, -, hcnt, hbuf⟩ | ⟨-, hcnt, -⟩ | ⟨b, rfl, -⟩ := exec_buffer h
  · exact pbufRead_congr hcnt hbuf a
  · simp [hcnt] at ha
  · cases hi

/-- The marks `w*`: a push or a frame operation that is not refused leaves them as they were. -/
theorem exec_frame_not_refused {i : Instr} {s t : State} (h : exec i s = .next t) (hi : refusal i s = none) :
    ((∃ b, i = .frmPush b) → t.res = s.res ∧ t.fOvf = s.fOvf) ∧ ((i = .frmTx ∨ i = .xchFrm) → t.fLen = s.fLen) := by
  cases exec_effect h
  case pushFull v hfull => simp [refusal, hfull] at hi
  case frmTxEmpty hempty | xchFrmEmpty hempty => simp [refusal, hempty] at hi
  all_goals simp

/-- Only a link operation touches the history and the oracle. -/
theorem exec_frame_link {i : Instr} {s t : State} (h : exec i s = .next t) (hi : isLinkOp i = false) : SameLink s t := by
  cases exec_effect h
  case frmTxEmpty | xchFrmEmpty | frmTx | xchFrm | xchCmd | txRaw | txFlush | rxOne => cases hi
  all_goals exact ⟨rfl, rfl⟩

/-- The host's side: no instruction touches requests or agent, and only a read returns a word. -/
theorem exec_frame_host {i : Instr} {s t : State} (h : exec i s = .next t) :
    t.requests = s.requests ∧ t.agent = s.agent ∧ (i.isWrite = true → t.returned = s.returned) := by
  cases exec_effect h
  case read w hread => simp [hread]
  all_goals exact ⟨rfl, rfl, fun _ => rfl⟩

/-- Settles O44: the columns of the summary one after the other. -/
theorem accessSummaryHolds : Obligations.AccessSummaryHolds := by
  intro i s t h
  obtain ⟨hcrc, haddr, hpcnt, hexp⟩ := exec_frame_registers h
  obtain ⟨hheld, hres⟩ := exec_frame_held h
  obtain ⟨hill, hlen, hovf⟩ := exec_frame_flags h
  exact ⟨hcrc, haddr, hpcnt, exec_frame_pbuf h, hexp, hheld, hres, hill, hlen, hovf,
    fun hpush hok => (exec_frame_not_refused h hok).1 hpush, fun hframe hok => (exec_frame_not_refused h hok).2 hframe,
    exec_frame_link h, exec_frame_host h⟩

/-- Settles O45: the buffer is as before, or empty, or has one more entry at the old count. -/
theorem payloadBytesFrame : Obligations.PayloadBytesFrame := by
  intro i s t h
  obtain ⟨hinit, hclr, hcnt, hbuf⟩ | ⟨hi, hcnt, -⟩ | ⟨b, rfl, hroom, hcnt, hbuf⟩ := exec_buffer h
  · have hsame := pbufRead_congr hcnt hbuf
    exact ⟨fun _ _ a _ => hsame a, fun hi => absurd hi (not_or.mpr ⟨hinit, hclr⟩), fun _ => hsame⟩
  · refine ⟨?_, fun _ => pbufRead_of_pcnt_zero hcnt, ?_⟩ <;> obtain rfl | rfl := hi <;> nofun
  · exact ⟨fun _ _ a ha => pbufRead_of_push hroom hcnt hbuf fun heq => ha ⟨hroom, heq⟩, nofun, nofun⟩

/-- Every sticky flag set in `s` is set in `t`, and a `RES` other than NONE is not NONE in `t`. -/
def NothingCleared (s t : State) : Prop :=
  (s.fIll = true → t.fIll = true) ∧ (s.fLen = true → t.fLen = true) ∧ (s.fOvf = true → t.fOvf = true) ∧
  (s.res ≠ .none → t.res ≠ .none)

theorem refuse_clears_nothing (s : State) (f : RefusalFlag) : NothingCleared s (s.refuse f) := by
  obtain ⟨hill, hlen, hovf⟩ := refuse_flags s f
  simp +contextual [NothingCleared, hill, hlen, hovf]

theorem judge_ne_none (e : Byte) (a : Option Byte) : judge e a ≠ .none := by
  cases a with
  | none => simp [judge]
  | some b => by_cases hb : b = e <;> simp [judge, hb]

theorem judgeRaw_ne_none (a : Option Byte) : judgeRaw a ≠ .none := by cases a <;> simp [judgeRaw]

/-- An instruction other than `INIT` clears no flag and does not set `RES` to NONE. -/
theorem exec_clears_nothing {i : Instr} {s t : State} (h : exec i s = .next t) (hi : i ≠ .init) : NothingCleared s t := by
  cases exec_effect h
  case init => exact absurd rfl hi
  case pushFull | frmTxEmpty | xchFrmEmpty => exact refuse_clears_nothing s _
  case xchFrm | xchCmd => exact ⟨id, id, id, fun _ => judge_ne_none _ _⟩
  case rxOne => exact ⟨id, id, id, fun _ => judgeRaw_ne_none _⟩
  case frmTx | txRaw | txFlush => exact ⟨id, id, id, nofun⟩
  all_goals exact ⟨id, id, id, id⟩

/-- Settles O46: a step that runs no `INIT` is a move of the host, another instruction, a refusal or a read. -/
theorem onlyInitClears : Obligations.OnlyInitClears := by
  intro s t hstep hno
  obtain ⟨-, hmove⟩ | ⟨_, rest, _, -, hfetch, htxn⟩ := step_cases hstep
  · obtain ⟨_, _, rfl⟩ := agentStep_hostOnly hmove
    exact ⟨id, id, id, id⟩
  · obtain ⟨i, rfl, hi⟩ | ⟨-, hw⟩ | ⟨-, hr⟩ := htxn
    · have hne : i ≠ .init := by
        rintro rfl
        exact hno _ hfetch
      exact exec_clears_nothing (s := { s with requests := rest }) hi hne
    · cases hw
      exact refuse_clears_nothing { s with requests := rest } .ill
    · cases hr
      exact ⟨id, id, id, id⟩

end Sys2Proof.Laws
end

section
/-! The layouts of `STATUS` and `XBYTE` (10_state R30, R31) and the values after reset and after `INIT` (10_state R39). -/

namespace Sys2Proof.Laws

open Sys2Proof.Machine Sys2Proof.Safety

/-! ### `STATUS`: the low end is cut off field by field -/

theorem statusWord_res (s : State) : (statusWord s).extractLsb' 0 3 = resCode s.res := by
  rw [statusWord, BitVec.extractLsb'_append_eq_of_add_le (by decide), BitVec.extractLsb'_eq_self]

theorem statusWord_rcls (s : State) : (statusWord s).extractLsb' 3 2 = rclassCode (rclass s.rxv s.rxb) := by
  rw [statusWord, BitVec.extractLsb'_append_eq_of_le (by decide), BitVec.extractLsb'_append_eq_of_add_le (by decide),
    BitVec.extractLsb'_eq_self]

theorem statusWord_rxv (s : State) : (statusWord s).getLsbD 5 = s.rxv := by
  rw [statusWord]
  iterate 3 rw [BitVec.getLsbD_append]
  simp

theorem statusWord_reserved_low (s : State) : (statusWord s).extractLsb' 6 2 = 0#2 := by
  rw [statusWord]
  iterate 3 rw [BitVec.extractLsb'_append_eq_of_le (by decide)]
  rw [BitVec.extractLsb'_append_eq_of_add_le (by decide), BitVec.extractLsb'_eq_self]

theorem statusWord_fIll (s : State) : (statusWord s).getLsbD 8 = s.fIll := by
  rw [statusWord]
  iterate 5 rw [BitVec.getLsbD_append]
  simp

theorem statusWord_fLen (s : State) : (statusWord s).getLsbD 9 = s.fLen := by
  rw [statusWord]
  iterate 6 rw [BitVec.getLsbD_append]
  simp

theorem statusWord_fOvf (s : State) : (statusWord s).getLsbD 10 = s.fOvf := by
  rw [statusWord]
  iterate 7 rw [BitVec.getLsbD_append]
  simp

theorem statusWord_reserved_high (s : State) : (statusWord s).extractLsb' 11 21 = 0#21 := by
  rw [statusWord]
  iterate 7 rw [BitVec.extractLsb'_append_eq_of_le (by decide)]
  exact BitVec.extractLsb'_eq_self

/-! ### `XBYTE` -/

theorem xbyteWord_exp (s : State) : (xbyteWord s).extractLsb' 0 8 = s.exp := by
  rw [xbyteWord, BitVec.extractLsb'_append_eq_of_add_le (by decide), BitVec.extractLsb'_eq_self]

theorem xbyteWord_rxb (s : State) : (xbyteWord s).extractLsb' 8 8 = s.rxb := by
  rw [xbyteWord, BitVec.extractLsb'_append_eq_of_le (by decide), BitVec.extractLsb'_append_eq_of_add_le (by decide),
    BitVec.extractLsb'_eq_self]

theorem xbyteWord_reserved (s : State) : (xbyteWord s).extractLsb' 16 16 = 0#16 := by
  rw [xbyteWord]
  iterate 2 rw [BitVec.extractLsb'_append_eq_of_le (by decide)]
  exact BitVec.extractLsb'_eq_self

/-! ### Reading the two registers -/

theorem exec_rdStatus_of_word {s : State} {w : Word} (h : statusWord s = w) :
    exec .rdStatus s = .next { s with returned := s.returned ++ [w] } := by
  rw [← h]
  rfl

theorem exec_rdXbyte_of_word {s : State} {w : Word} (h : xbyteWord s = w) :
    exec .rdXbyte s = .next { s with returned := s.returned ++ [w] } := by
  rw [← h]
  rfl

/-- Settles O24: the words read are `statusWord` and `xbyteWord`, whose fields are cut out one by one. -/
theorem registerLayouts : Obligations.RegisterLayouts := by
  intro s data
  exact ⟨⟨statusWord s, decode_packTxn false 0x0#4 data, exec_rdStatus_of_word rfl,
      (statusWord_res s).trans (by cases s.res <;> rfl), statusWord_rcls s, statusWord_rxv s, statusWord_reserved_low s,
      statusWord_fIll s, statusWord_fLen s, statusWord_fOvf s, statusWord_reserved_high s⟩,
    decode_packTxn true 0x0#4 data,
    ⟨xbyteWord s, decode_packTxn false 0x8#4 data, exec_rdXbyte_of_word rfl, xbyteWord_exp s, xbyteWord_rxb s,
      xbyteWord_reserved s⟩,
    decode_packTxn true 0x8#4 data⟩

/-! ### Reset -/

theorem statusWord_resetBlock (s : State) : statusWord s.resetBlock = 0x00000000#32 :=
  show statusWord State.reset = 0x00000000#32 by decide

theorem xbyteWord_resetBlock (s : State) : xbyteWord s.resetBlock = 0x00000000#32 :=
  show xbyteWord State.reset = 0x00000000#32 by decide

/-- `INIT` leads to the reset values, and the state at reset has them. -/
theorem eq_resetBlock_of_reset_or_init {t : State} (h : t = State.reset ∨ ∃ s, exec .init s = .next t) :
    ∃ s : State, t = s.resetBlock := by
  obtain rfl | ⟨s, hinit⟩ := h
  · exact ⟨State.reset, rfl⟩
  · cases hinit
    exact ⟨s, rfl⟩

/-- Settles O39: reset and `INIT` give the block the same values. -/
theorem resetValues : Obligations.ResetValues := by
  intro t ht
  obtain ⟨s, rfl⟩ := eq_resetBlock_of_reset_or_init ht
  exact ⟨rfl, rfl, rfl, pbufRead_of_pcnt_zero rfl, rfl, rfl, rfl, rfl, rfl, rfl, rfl,
    exec_rdStatus_of_word (statusWord_resetBlock s), rfl, rfl, rfl, exec_rdXbyte_of_word (xbyteWord_resetBlock s)⟩

/-- Settles O40: the payload is empty, and no byte is held with `RES` NONE. -/
theorem resetHasInvariant : Obligations.ResetHasInvariant :=
  (inv_iff State.reset).mpr ⟨⟨by decide, rfl⟩, ⟨fun _ => rfl, nofun, nofun, nofun, nofun⟩⟩

end Sys2Proof.Laws
end

section
/-! The history and the oracle (20_memory R56, R60, R62): what is recorded only grows at its end, a read consumes the oracle's next
answer, register reads have no side effect, and the four idempotent writes. -/

namespace Sys2Proof.Laws

open Sys2Proof.Machine Sys2Proof.Safety

/-! ### What is recorded only grows -/

/-- What `s` has recorded, link events and returned words, stands unchanged at the front of what `t` has recorded. -/
def OnlyAppends (s t : State) : Prop := s.events <+: t.events ∧ s.returned <+: t.returned

/-- A link operation appends its events, a register read its word, and every other effect records nothing. -/
theorem exec_onlyAppends {i : Instr} {s t : State} (h : exec i s = .next t) : OnlyAppends s t := by
  cases exec_effect h
  case frmTx | xchFrm | xchCmd | txRaw | txFlush | rxOne => exact ⟨List.prefix_append _ _, List.prefix_rfl⟩
  case read w hread => exact ⟨List.prefix_rfl, List.prefix_append _ _⟩
  all_goals exact ⟨List.prefix_rfl, List.prefix_rfl⟩

theorem HostOnly.onlyAppends {s t : State} (h : HostOnly s t) : OnlyAppends s t := by
  obtain ⟨_, _, rfl⟩ := h
  exact ⟨List.prefix_rfl, List.prefix_rfl⟩

/-- Settles O48: a step is a move of the host, which records nothing, an instruction, a refusal or a reserved read. -/
theorem historyOnlyGrows : Obligations.HistoryOnlyGrows := by
  intro s t hstep
  obtain ⟨-, hmove⟩ | ⟨_, rest, _, -, -, htxn⟩ := step_cases hstep
  · exact (agentStep_hostOnly hmove).onlyAppends
  · obtain ⟨i, -, hi⟩ | ⟨-, hw⟩ | ⟨-, hr⟩ := htxn
    · exact exec_onlyAppends (s := { s with requests := rest }) hi
    · cases hw
      exact ⟨List.prefix_rfl, List.prefix_rfl⟩
    · cases hr
      exact ⟨List.prefix_rfl, List.prefix_append _ _⟩

/-! ### A read of the link -/

/-- `RX.ONE` holds and records the answer the Transport gives now, and drops it from the oracle. -/
theorem exec_rxOne (s : State) :
    exec .rxOne s = .next { s with
      rxv := s.linkAnswer.isSome, rxb := s.linkAnswer.getD 0x00#8, res := judgeRaw s.linkAnswer,
      answers := s.answers.tail, events := s.events ++ [.rx s.linkAnswer] } := by
  have hanswer : s.clearHeld.linkAnswer = s.linkAnswer := rfl
  simp only [exec, execRxOne, receive_eq, hanswer, clearHeld_rxb, clearHeld_rxv, Bool.or_false]
  rfl

/-- Settles O26: the answer is the oracle's first, and `RX.ONE` holds, records and consumes it. -/
theorem readTakesTheOracleAnswer : Obligations.ReadTakesTheOracleAnswer := by
  intro s a rest hlist
  have hanswer : s.linkAnswer = a := answerAfter_cons hlist []
  refine ⟨answerAfter_cons hlist, _, exec_rxOne s, ?_⟩
  rw [hanswer, hlist]
  refine ⟨rfl, rfl, rfl, ?_⟩
  rintro b rfl
  rfl

/-! ### Repeated transactions -/

/-- Every register read returns a word that does not depend on the words returned before. -/
theorem exec_read {i : Instr} (hread : i.isWrite = false) :
    ∃ word : State → Word, (∀ s, exec i s = .next (s.returnWord (word s))) ∧ ∀ s w, word (s.returnWord w) = word s := by
  cases i
  case rdStatus => exact ⟨statusWord, fun _ => rfl, fun _ _ => rfl⟩
  case rdCrc => exact ⟨crcWord, fun _ => rfl, fun _ _ => rfl⟩
  case rdAddr => exact ⟨addrWord, fun _ => rfl, fun _ _ => rfl⟩
  case rdPcnt => exact ⟨pcntWord, fun _ => rfl, fun _ _ => rfl⟩
  case rdXbyte => exact ⟨xbyteWord, fun _ => rfl, fun _ _ => rfl⟩
  all_goals cases hread

theorem returnWord_sameBlock (s : State) (w : Word) : SameBlock s (s.returnWord w) :=
  ⟨rfl, rfl, rfl, rfl, rfl, rfl, rfl, rfl, rfl, rfl, rfl⟩

theorem returnWord_sameLink (s : State) (w : Word) : SameLink s (s.returnWord w) := ⟨rfl, rfl⟩

/-- Settles O50: a read only returns its word, and the word is the same afterwards. -/
theorem readsAreFreeOfSideEffects : Obligations.ReadsAreFreeOfSideEffects := by
  intro i s hread
  obtain ⟨word, hexec, hsame⟩ := exec_read hread
  have hagain : exec i (s.returnWord (word s)) = .next ((s.returnWord (word s)).returnWord (word s)) := by
    rw [hexec, hsame]
  exact ⟨s.returnWord (word s), word s, hexec s, returnWord_sameBlock s _, returnWord_sameLink s _, rfl, rfl, rfl, hagain⟩

/-- Settles O51: each of the four writes constants, or its operand, whatever stood there before. -/
theorem fourWritesAreIdempotent : Obligations.FourWritesAreIdempotent := by
  intro i s hi
  obtain rfl | rfl | ⟨v, rfl⟩ | ⟨v, rfl⟩ := hi
  · exact ⟨s.resetBlock, rfl, rfl⟩
  · exact ⟨{ s with pcnt := 0#9, pbuf := [] }, rfl, rfl⟩
  · exact ⟨{ s with addr := v }, rfl, rfl⟩
  · exact ⟨{ s with crc := v }, rfl, rfl⟩

end Sys2Proof.Laws
end

section
/-! The encoding (30_encoding R70 to R79, R89): the round trip of encoder and decoder, the four cases of decoding and the bits it
ignores, a transaction as a number, and the accesses of the memory-mapped binding. -/

namespace Sys2Proof.Laws

open Sys2Proof.Machine Sys2Proof.Safety

/-! ### Operands (30_encoding R75) -/

@[simp] theorem imm8_setWidth (v : BitVec 8) : imm8 (v.setWidth 32) = v :=
  (BitVec.extractLsb'_setWidth_of_le (by decide)).trans BitVec.extractLsb'_eq_self

@[simp] theorem imm16_setWidth (v : BitVec 16) : imm16 (v.setWidth 32) = v :=
  (BitVec.extractLsb'_setWidth_of_le (by decide)).trans BitVec.extractLsb'_eq_self

/-- Words whose low `n` bits agree as numbers have the same operand of `n` bits. -/
theorem lowBits_congr {n : Nat} {d e : Word} (h : d.toNat % 2 ^ n = e.toNat % 2 ^ n) :
    d.extractLsb' 0 n = e.extractLsb' 0 n :=
  BitVec.eq_of_toNat_eq (by simpa using h)

/-! ### The round trip -/

/-- The decoder reads an instruction back from its canonical selector and operand. -/
theorem decode_encode (i : Instr) : decode (encode i) = .op i := by
  rw [encode, decode_packTxn]
  cases i with
  | crcSeed v => exact congrArg (Decoded.op <| .crcSeed ·) (imm16_setWidth v)
  | crcByte v => exact congrArg (Decoded.op <| .crcByte ·) (imm8_setWidth v)
  | frmPush v => exact congrArg (Decoded.op <| .frmPush ·) (imm8_setWidth v)
  | xchCmd v => exact congrArg (Decoded.op <| .xchCmd ·) (imm8_setWidth v)
  | txRaw v => exact congrArg (Decoded.op <| .txRaw ·) (imm8_setWidth v)
  | _ => rfl

/-- Settles O1: the fields of the word read back, and the operand is cut out of the field it was widened to. -/
theorem decodeEncodeRoundTrip : Obligations.DecodeEncodeRoundTrip :=
  fun i _ => decode_encode i

/-! ### Decoding by cases, and the ignored bits -/

/-- A write selector is assigned up to 0xB and reserved above (30_encoding R73, R76). -/
theorem decodeWrite_cases (sel : BitVec 4) (data : Word) :
    (sel.toNat ≤ 0xB ∧ ∃ i, decodeWrite sel data = .op i ∧ i.isWrite = true ∧ i.sel = sel) ∨
    (0xB < sel.toNat ∧ decodeWrite sel data = .reservedWrite sel) := by
  fun_cases decodeWrite sel data
  case case13 => exact .inr ⟨by simp only [imp_false] at *; bv_omega, rfl⟩
  all_goals exact .inl ⟨by decide, _, rfl, rfl, rfl⟩

/-- A read selector is assigned or reserved (30_encoding R74, R77). -/
theorem decodeRead_cases (sel : BitVec 4) :
    (readAssigned sel = true ∧ ∃ i, decodeRead sel = .op i ∧ i.isWrite = false ∧ i.sel = sel) ∨
    (readAssigned sel = false ∧ decodeRead sel = .reservedRead sel) := by
  fun_cases decodeRead sel
  case case6 => exact .inr ⟨by simp_all [readAssigned], rfl⟩
  all_goals exact .inl ⟨rfl, _, rfl, rfl, rfl⟩

/-- Of the data, a write depends on the bits its operation uses (30_encoding R75). -/
theorem decodeWrite_congr {sel : BitVec 4} {d e : Word}
    (h : d.toNat % 2 ^ usedBits sel = e.toNat % 2 ^ usedBits sel) : decodeWrite sel d = decodeWrite sel e := by
  fun_cases decodeWrite sel d
  case case2 => exact congrArg (Decoded.op <| .crcSeed ·) (lowBits_congr h)
  case case3 => exact congrArg (Decoded.op <| .crcByte ·) (lowBits_congr h)
  case case4 =>
    have himm : imm32 d = imm32 e := by simpa [imm32] using lowBits_congr (n := 32) h
    exact congrArg (Decoded.op <| .frmAddr ·) himm
  case case6 => exact congrArg (Decoded.op <| .frmPush ·) (lowBits_congr h)
  case case9 => exact congrArg (Decoded.op <| .xchCmd ·) (lowBits_congr h)
  case case10 => exact congrArg (Decoded.op <| .txRaw ·) (lowBits_congr h)
  case case13 => simp_all [decodeWrite]
  all_goals rfl

/-- Settles O3: the two halves of the operation map, each with its assigned and its reserved selectors. -/
theorem decodingIsTotal : Obligations.DecodingIsTotal := by
  refine ⟨fun t => ?_, fun t u hrw hsel hdata => ?_⟩
  · cases hw : rwOf t with
    | true =>
      obtain ⟨hlo, hop⟩ | ⟨hhi, hres⟩ := decodeWrite_cases (selOf t) (dataOf t)
      · simpa [decode, hw, hlo] using hop
      · simpa [decode, hw, hhi.not_ge] using hres
    | false =>
      obtain ⟨hyes, hop⟩ | ⟨hno, hres⟩ := decodeRead_cases (selOf t)
      · simpa [decode, hw, hyes] using hop
      · simpa [decode, hw, hno] using hres
  · rw [decode, decode, ← hrw, ← hsel]
    cases hw : rwOf t with
    | true => exact decodeWrite_congr (hsel ▸ hdata hw)
    | false => rfl

/-! ### A transaction as a number (30_encoding R70 to R72) -/

/-- The three fields stand side by side, so the number is the sum of the fields at their places. -/
theorem packTxn_toNat (rw : Bool) (sel : BitVec 4) (data : Word) :
    (packTxn rw sel data).toNat = (if rw then 0x1000000000 else 0) + sel.toNat * 0x100000000 + data.toNat := by
  rw [packTxn, BitVec.toNat_append, BitVec.toNat_append, ← Nat.shiftLeft_add_eq_or_of_lt data.isLt,
    ← Nat.shiftLeft_add_eq_or_of_lt sel.isLt, Nat.shiftLeft_eq, Nat.shiftLeft_eq]
  cases rw with
  | false => simp
  | true => simp only [BitVec.toNat_ofBool, Bool.toNat_true, if_true]; omega

/-- Settles O2: the number by its fields, and each field cut out again. -/
theorem transactionIsItsNumber : Obligations.TransactionIsItsNumber :=
  fun rw sel data => ⟨packTxn_toNat rw sel data, rwOf_packTxn rw sel data, selOf_packTxn rw sel data,
    dataOf_packTxn rw sel data⟩

/-- Settles O4: thirteen closed words, each evaluated by the decoder. -/
theorem specWordsDecode : Obligations.SpecWordsDecode := by
  unfold Obligations.SpecWordsDecode
  decide

/-! ### The memory-mapped binding (30_encoding R79, 20_memory R55) -/

/-- The defined accesses are the aligned 32-bit ones at the sixteen selectors' addresses. -/
theorem busAccess_wf_iff (a : BusAccess) :
    a.wf = true ↔ ∃ k, k < 16 ∧ a.width = 4 ∧ a.addr = Config.base + 4 * k := by
  simp only [BusAccess.wf, offsetWf, Bool.and_eq_true, decide_eq_true_eq, beq_iff_eq]
  constructor
  · rintro ⟨hbase, ⟨hwidth, halign⟩, hwindow⟩
    exact ⟨(a.addr - Config.base) / 4, by omega, hwidth, by omega⟩
  · rintro ⟨k, hk, hwidth, haddr⟩
    omega

/-- An access at a selector's address is that selector's transaction; a load carries no data. -/
theorem txn?_at_sel (store : Bool) (sel : BitVec 4) (data : Word) :
    BusAccess.txn? { store, addr := Config.base + 4 * sel.toNat, width := 4, data } =
      some (packTxn store sel (if store then data else 0#32)) := by
  have hwf := (busAccess_wf_iff ⟨store, Config.base + 4 * sel.toNat, 4, data⟩).mpr ⟨sel.toNat, sel.isLt, rfl, rfl⟩
  simp [BusAccess.txn?, hwf]

/-- The host port refuses a request the binding does not define. -/
theorem step_of_undefined {s : State} {r : Request} {rest : List Request} (h : s.requests = r :: rest)
    (ht : r.txn? = none) : step s = .refused .busAccessUndefined := by
  rw [step, fetch_undefined h ht]

/-- Settles O5: the window's sixteen places are the sixteen selectors, and any other access is no transaction. -/
theorem busAccessIsItsTransaction : Obligations.BusAccessIsItsTransaction := by
  refine ⟨txn?_at_sel true, txn?_at_sel false, fun a s rest hout hreq => step_of_undefined hreq ?_⟩
  have hnot : ¬ a.wf = true := hout ∘ (busAccess_wf_iff a).mp
  exact if_neg hnot

end Sys2Proof.Laws
end

section
/-! The checksum engine (40_checksum R100 to R108): one iteration as a shift with feedback, what follows from it for a byte and for
a sequence, and the host's way to a checksum. -/

namespace Sys2Proof.Laws

open Sys2Proof.Machine Sys2Proof.Safety

/-! ### One iteration -/

/-- The polynomial's low part is `x^12 + x^5 + 1` (40_checksum R102). -/
theorem getLsbD_crcPoly {i : Nat} (h : i < 16) : Config.crcPoly.getLsbD i = (i == 0 || i == 5 || i == 12) := by
  decide +revert

/-- The value moves up by one, and the bit that leaves is XORed in where the polynomial has a term. -/
theorem getLsbD_crcBit (v : Crc) (i : Nat) :
    (crcBit v).getLsbD i = ((v <<< 1).getLsbD i ^^ (v.getLsbD 15 && Config.crcPoly.getLsbD i)) := by
  rw [crcBit, BitVec.msb_eq_getLsbD_last]
  cases v.getLsbD 15
  · rw [if_neg nofun, Bool.false_and, Bool.xor_false]
  · rw [if_pos rfl, BitVec.getLsbD_xor, Bool.true_and]

theorem getLsbD_zero_crcBit (v : Crc) : (crcBit v).getLsbD 0 = v.getLsbD 15 := by
  rw [getLsbD_crcBit, getLsbD_crcPoly (by decide)]
  simp

theorem getLsbD_succ_crcBit (v : Crc) {i : Nat} (h : i < 15) :
    (crcBit v).getLsbD (i + 1) = (v.getLsbD i ^^ (v.getLsbD 15 && (i == 4 || i == 11))) := by
  have hi : i + 1 < 16 := Nat.succ_lt_succ h
  have hshift : (v <<< 1).getLsbD (i + 1) = v.getLsbD i := by simp only [BitVec.getLsbD_shiftLeft, hi]; simp
  have hterm : Config.crcPoly.getLsbD (i + 1) = (i == 4 || i == 11) := by simp [getLsbD_crcPoly hi]
  rw [getLsbD_crcBit, hshift, hterm]

theorem crcBit_xor (v w : Crc) : crcBit (v ^^^ w) = crcBit v ^^^ crcBit w := by
  apply BitVec.eq_of_getLsbD_eq
  intro i _
  simp only [getLsbD_crcBit, BitVec.shiftLeft_xor_distrib, BitVec.getLsbD_xor, Bool.and_xor_distrib_right, Bool.xor_assoc,
    Bool.xor_left_comm]

/-- Bit 0 of the result is the feedback; with it known, the other bits are moved back. -/
theorem crcBit_injective : Function.Injective crcBit := by
  intro v w h
  have htop : v.getLsbD 15 = w.getLsbD 15 := by rw [← getLsbD_zero_crcBit, ← getLsbD_zero_crcBit, h]
  apply BitVec.eq_of_getLsbD_eq
  intro i hi
  obtain rfl | hlt : i = 15 ∨ i < 15 := by omega
  · exact htop
  · have hbit : (crcBit v).getLsbD (i + 1) = (crcBit w).getLsbD (i + 1) := by rw [h]
    rw [getLsbD_succ_crcBit v hlt, getLsbD_succ_crcBit w hlt, htop] at hbit
    exact Bool.xor_left_inj.mp hbit

/-! ### Several iterations -/

theorem crcBits_xor (n : Nat) (v w : Crc) : crcBits n (v ^^^ w) = crcBits n v ^^^ crcBits n w := by
  induction n generalizing v w with
  | zero => rfl
  | succ n ih => rw [crcBits, crcBit_xor, ih, crcBits, crcBits]

theorem crcBits_injective (n : Nat) : Function.Injective (crcBits n) := by
  induction n with
  | zero => exact Function.injective_id
  | succ n ih => exact ih.comp crcBit_injective

/-- As long as only zeros leave at the top, the iterations only shift. -/
theorem crcBits_eq_shiftLeft {n : Nat} {v : Crc} (h : v.toNat * 2 ^ n < 2 ^ 16) : crcBits n v = v <<< n := by
  induction n generalizing v with
  | zero => exact (BitVec.shiftLeft_zero v).symm
  | succ n ih =>
    have hdouble : v.toNat * 2 * 2 ^ n < 2 ^ 16 := by rwa [Nat.mul_assoc, ← Nat.pow_succ']
    have hsmall : v.toNat * 2 < 2 ^ 16 := Nat.lt_of_le_of_lt (Nat.le_mul_of_pos_right _ (Nat.two_pow_pos n)) hdouble
    have htop : v.msb = false := BitVec.msb_eq_false_iff_two_mul_lt.mpr (by omega)
    have hbit : crcBit v = v <<< 1 := by simp [crcBit, htop]
    have hval : (v <<< 1).toNat = v.toNat * 2 := by
      rw [BitVec.toNat_shiftLeft, Nat.shiftLeft_eq, Nat.pow_one, Nat.mod_eq_of_lt hsmall]
    rw [crcBits, hbit, ih (by rwa [hval]), ← BitVec.shiftLeft_add, Nat.add_comm]

/-! ### A byte -/

/-- The running value with a byte XORed into its high byte, from which the eight iterations start (40_checksum R100). -/
def loadByte (c : Crc) (b : Byte) : Crc := c ^^^ (b.setWidth 16 <<< 8)

theorem crcByte_eq (c : Crc) (b : Byte) : crcByte c b = crcBits 8 (loadByte c b) := rfl

theorem loadByte_high (c : Crc) (b : Byte) : (loadByte c b).extractLsb' 8 8 = c.extractLsb' 8 8 ^^^ b := by
  rw [loadByte, BitVec.extractLsb'_xor]
  congr 1
  apply BitVec.eq_of_getLsbD_eq
  intro i hi
  simp [hi, show 8 + i < 16 by omega]

theorem loadByte_low (c : Crc) (b : Byte) : (loadByte c b).extractLsb' 0 8 = c.extractLsb' 0 8 := by
  rw [loadByte, BitVec.extractLsb'_xor]
  ext i hi
  simp [hi]

theorem loadByte_xor (c1 c2 : Crc) (b1 b2 : Byte) :
    loadByte (c1 ^^^ c2) (b1 ^^^ b2) = loadByte c1 b1 ^^^ loadByte c2 b2 := by
  simp only [loadByte, BitVec.setWidth_xor, BitVec.shiftLeft_xor_distrib]
  ac_rfl

theorem loadByte_injective_left (b : Byte) : Function.Injective (loadByte · b) :=
  fun _ _ h => (BitVec.xor_left_inj _).mp h

theorem loadByte_injective_right (c : Crc) : Function.Injective (loadByte c) := by
  intro x y h
  have hhigh : c.extractLsb' 8 8 ^^^ x = c.extractLsb' 8 8 ^^^ y := by rw [← loadByte_high, ← loadByte_high, h]
  exact (BitVec.xor_right_inj _).mp hhigh

theorem crcByte_injective_left (b : Byte) : Function.Injective (crcByte · b) :=
  (crcBits_injective 8).comp (loadByte_injective_left b)

theorem crcByte_injective_right (c : Crc) : Function.Injective (crcByte c) :=
  (crcBits_injective 8).comp (loadByte_injective_right c)

/-- Settles O28: the bits of an iteration by the polynomial's terms, and a byte loaded into the high byte. -/
theorem crcBitIsFeedbackShift : Obligations.CrcBitIsFeedbackShift := by
  refine ⟨fun v => ⟨getLsbD_zero_crcBit v, ?_, ?_, ?_⟩,
    fun c b => ⟨loadByte c b, loadByte_high c b, loadByte_low c b, crcByte_eq c b⟩⟩
  · exact (getLsbD_succ_crcBit v (i := 4) (by decide)).trans (by simp)
  · exact (getLsbD_succ_crcBit v (i := 11) (by decide)).trans (by simp)
  · intro i hpos hle h5 h12
    obtain ⟨k, rfl⟩ := Nat.exists_eq_add_of_le' hpos
    have hterm : (k == 4 || k == 11) = false := by
      simp only [Bool.or_eq_false_iff, beq_eq_false_iff_ne]
      omega
    rw [getLsbD_succ_crcBit v hle, hterm, Bool.and_false, Bool.xor_false]
    rfl

/-- Settles O29: loading the byte and the eight iterations are both linear. -/
theorem crcByteIsLinear : Obligations.CrcByteIsLinear := by
  refine ⟨fun c1 c2 b1 b2 => ?_, by decide⟩
  rw [crcByte_eq, loadByte_xor, crcBits_xor, crcByte_eq, crcByte_eq]

/-- Settles O30: an injective map of a finite type to itself is a bijection. -/
theorem crcByteIsBijective : Obligations.CrcByteIsBijective :=
  ⟨fun b => Finite.injective_iff_bijective.mp (crcByte_injective_left b), crcByte_injective_right⟩

/-! ### A sequence -/

theorem crc16_append (a b : List Byte) (s : Crc) : crc16 (a ++ b) s = crc16 b (crc16 a s) := List.foldl_append

theorem crc16_injective (bs : List Byte) : Function.Injective (crc16 bs) := by
  induction bs with
  | nil => exact Function.injective_id
  | cons b bs ih => exact ih.comp (crcByte_injective_left b)

/-- Settles O31: the changed byte gives different running values, which the bytes after it keep apart. -/
theorem crcDetectsOneChangedByte : Obligations.CrcDetectsOneChangedByte := by
  intro before after x y seed hxy
  rw [crc16_append, crc16_append, crc16_cons, crc16_cons]
  exact (crc16_injective after).ne ((crcByte_injective_right _).ne hxy)

/-- A value's own high byte cancels it: what the eight iterations start from is its low byte, and they only shift it. -/
theorem crcByte_own_high (c : Crc) : crcByte c (c.extractLsb' 8 8) = (c.extractLsb' 0 8).setWidth 16 <<< 8 := by
  have hload : loadByte c (c.extractLsb' 8 8) = (c.extractLsb' 0 8).setWidth 16 := by
    apply BitVec.eq_of_getLsbD_eq
    intro i hi
    by_cases h8 : i < 8
    · simp [loadByte, hi, h8]
    · have hbyte : i - 8 < 8 := by omega
      have hpos : 8 + (i - 8) = i := by omega
      simp [loadByte, hi, h8, hbyte, hpos]
  rw [crcByte_eq, hload]
  refine crcBits_eq_shiftLeft ?_
  have hbyte := (c.extractLsb' 0 8).isLt
  rw [BitVec.toNat_setWidth_of_le (by decide)]
  omega

/-- A byte that is the whole of the high byte, over a zero low byte, leaves nothing. -/
theorem crcByte_shifted_self (b : Byte) : crcByte (b.setWidth 16 <<< 8) b = 0#16 := by
  rw [crcByte_eq, loadByte, BitVec.xor_self]
  decide

/-- The residue, high byte first (40_checksum R105 (f)). -/
theorem crc16_own_bytes (c : Crc) : crc16 [c.extractLsb' 8 8, c.extractLsb' 0 8] c = 0#16 := by
  rw [crc16_cons, crcByte_own_high]
  exact crcByte_shifted_self _

/-- Settles O32: the checksum is a fold, and a value absorbs its own two bytes to zero. -/
theorem crcSequenceLaws : Obligations.CrcSequenceLaws := by
  refine ⟨crc16_append, fun _ => rfl, fun bs s => ?_⟩
  rw [crc16_append, crc16_own_bytes]

/-! ### The two instructions and the host's use of them -/

/-- Settles O11: selector 1 is `CRC.SEED` of the low half of the data. -/
theorem crcSeedLoadsSeed : Obligations.CrcSeedLoadsSeed :=
  fun data _ => ⟨decode_packTxn true 0x1#4 data, rfl⟩

/-- Settles O12: selector 2 is `CRC.BYTE` of the low byte of the data. -/
theorem crcByteAbsorbsByte : Obligations.CrcByteAbsorbsByte :=
  fun data _ => ⟨decode_packTxn true 0x2#4 data, rfl⟩

/-- The next request is an instruction's canonical word: the step takes it and runs the instruction. -/
theorem step_of_encoded {s : State} {i : Instr} {rest : List Request} (h : s.requests = .word (encode i) :: rest) :
    step s = exec i { s with requests := rest } :=
  stepRunsDecodedInstruction s _ rest _ i h rfl (decode_encode i)

/-- `CRC.BYTE` for each byte of a sequence leaves its checksum in `CRC`. -/
theorem run_crcBytes (bs : List Byte) (rest : List Request) (s : State)
    (h : s.requests = (bs.map fun b => .word (encode (.crcByte b))) ++ rest) :
    Sys2Proof.core.run bs.length s = .next { s with requests := rest, crc := crc16 bs s.crc } := by
  induction bs generalizing s with
  | nil =>
    have hreq : s.requests = rest := h
    subst hreq
    rfl
  | cons b bs ih =>
    rw [List.length_cons, run_succ_of_step (step_of_encoded h)]
    exact ih _ rfl

/-- With `RD.CRC` after the bytes, the checksum is returned. -/
theorem run_crcBytes_rdCrc (bs : List Byte) (rest : List Request) (s : State)
    (h : s.requests = (bs.map fun b => .word (encode (.crcByte b))) ++ .word (encode .rdCrc) :: rest) :
    Sys2Proof.core.run (bs.length + 1) s =
      .next { s with
        requests := rest, crc := crc16 bs s.crc, returned := s.returned ++ [(crc16 bs s.crc).setWidth 32] } := by
  rw [run_add _ _ _ _ _ (run_crcBytes bs _ s h)]
  exact run_succ_of_step (step_of_encoded (i := .rdCrc) rfl)

/-- Settles O33: `CRC.SEED` is one step before the run of the bytes and of `RD.CRC`. -/
theorem hostChecksumIsCrc16 : Obligations.HostChecksumIsCrc16 := by
  refine ⟨fun bs seed rest s h => ?_, run_crcBytes_rdCrc, rfl, ?_⟩
  · rw [run_succ_of_step (step_of_encoded h)]
    exact run_crcBytes_rdCrc bs rest _ rfl
  · intro s t hinit
    cases hinit
    rfl

end Sys2Proof.Laws
end

section
/-! The frame codec (41_frame_codec R120 to R133): the three operations that load a segment, the layout of a frame, and what
`FRM.TX` and `XCH.FRM` put on the link. -/

namespace Sys2Proof.Laws

open Sys2Proof.Machine Sys2Proof.Safety

/-! ### Loading a segment -/

/-- Settles O13: selector 3 is `FRM.ADDR` of the whole data word. -/
theorem frmAddrSetsAddress : Obligations.FrmAddrSetsAddress :=
  fun data _ => ⟨decode_packTxn true 0x3#4 data, rfl⟩

/-- Settles O14: selector 4 is `FRM.CLR`, and with a count of zero nothing is readable. -/
theorem frmClrEmptiesPayload : Obligations.FrmClrEmptiesPayload :=
  fun data s => ⟨decode_packTxn true 0x4#4 data, { s with pcnt := 0#9, pbuf := [] }, rfl, pbufRead_of_pcnt_zero rfl, rfl⟩

theorem exec_frmPush_full {s : State} (hfull : s.pcnt.toNat = 256) (v : Byte) : exec (.frmPush v) s = .next (s.refuse .ovf) :=
  if_pos hfull

theorem exec_frmPush_room {s : State} (hroom : s.pcnt.toNat < 256) (v : Byte) :
    exec (.frmPush v) s = .next { s with pbuf := Memory.write s.pbuf s.pcnt.toNat v, pcnt := s.pcnt + 1#9 } :=
  (if_neg hroom.ne).trans (if_pos hroom)

/-- The entry an accepted push writes is readable at once. -/
theorem pbufRead_pushed {s t : State} {b : Byte} (hroom : s.pcnt.toNat < 256) (hcnt : t.pcnt = s.pcnt + 1#9)
    (hbuf : t.pbuf = Memory.write s.pbuf s.pcnt.toNat b) : t.pbufRead s.pcnt.toNat = some b := by
  have hreadable : s.pcnt.toNat < t.pcnt.toNat ∧ s.pcnt.toNat < Config.pbufSize :=
    ⟨by rw [hcnt, pcnt_succ_toNat hroom]; exact Nat.lt_succ_self _, hroom⟩
  rw [State.pbufRead, if_pos hreadable, hbuf, memory_read_write_same]

/-- Settles O15: a full buffer refuses, and otherwise the one entry written is the one newly counted. -/
theorem frmPushAppends : Obligations.FrmPushAppends := by
  intro data s
  refine ⟨decode_packTxn true 0x5#4 data, fun hfull => exec_frmPush_full hfull _, fun hroom => ?_⟩
  exact ⟨_, exec_frmPush_room hroom _, pcnt_succ_toNat hroom, pbufRead_pushed hroom rfl rfl,
    fun _ hne => pbufRead_of_push hroom rfl rfl hne, rfl⟩

/-! ### The layout of a frame (41_frame_codec R121 to R123) -/

/-- What stands before the payload: START, the address and the length, low bytes first. -/
def frameHeader (a : Word) (n : Nat) : List Byte := Config.wireStart :: (le32 a ++ le16 (BitVec.ofNat 16 n))

/-- What the checksum covers: address, length and payload (41_frame_codec R122). -/
def frameCovered (a : Word) (p : List Byte) : List Byte := le32 a ++ le16 (BitVec.ofNat 16 p.length) ++ p

theorem frameBytes_eq_header (a : Word) (p : List Byte) :
    frameBytes a p = frameHeader a p.length ++ (p ++ le16 (frameChecksum a p)) :=
  List.append_assoc ..

theorem frameBytes_eq_covered (a : Word) (p : List Byte) :
    frameBytes a p = Config.wireStart :: (frameCovered a p ++ le16 (frameChecksum a p)) := by
  simp [frameBytes, frameCovered]

theorem frameChecksum_eq (a : Word) (p : List Byte) : frameChecksum a p = crc16 (frameCovered a p) 0xFFFF#16 := rfl

@[simp] theorem frameHeader_length (a : Word) (n : Nat) : (frameHeader a n).length = 7 := rfl

@[simp] theorem frameCovered_length (a : Word) (p : List Byte) : (frameCovered a p).length = p.length + 6 := by
  simp +arith [frameCovered, le32, le16]

@[simp] theorem le16_length (v : BitVec 16) : (le16 v).length = 2 := rfl

@[simp] theorem frameBytes_length (a : Word) (p : List Byte) : (frameBytes a p).length = p.length + 9 := by
  rw [frameBytes_eq_covered]
  simp

/-! ### The embedded checksum (41_frame_codec R133) -/

/-- A 16-bit value by its two bytes, low byte first. -/
theorem toNat_eq_bytes (v : BitVec 16) : v.toNat = (v.extractLsb' 0 8).toNat + 256 * (v.extractLsb' 8 8).toNat := by
  have hv := v.isLt
  simp only [BitVec.extractLsb'_toNat, Nat.shiftRight_eq_div_pow]
  omega

/-- Settles O34: without START and the two bytes at the end, the frame is what its checksum covers. -/
theorem frameCarriesItsChecksum : Obligations.FrameCarriesItsChecksum := by
  intro a p _ _
  have hcovered : ((frameBytes a p).drop 1).take ((frameBytes a p).length - 3) = frameCovered a p := by
    rw [frameBytes_length, frameBytes_eq_covered, List.drop_one, List.tail_cons]
    exact List.take_left' (frameCovered_length a p)
  refine ⟨rfl, (frameChecksum a p).extractLsb' 0 8, (frameChecksum a p).extractLsb' 8 8, ?_, ?_, ?_⟩
  · rw [frameBytes_length, frameBytes_eq_covered]
    simp [le16]
  · rw [frameBytes_length, frameBytes_eq_covered]
    simp [le16]
  · rw [hcovered, ← frameChecksum_eq]
    exact toNat_eq_bytes _

/-! ### Injectivity -/

/-- A word is its four bytes side by side. -/
theorem le32_injective : Function.Injective le32 := by
  intro v w h
  simp only [le32, List.cons.injEq, and_true] at h
  obtain ⟨h0, h8, h16, h24⟩ := h
  apply BitVec.eq_of_toNat_eq
  have hv := v.isLt
  have hw := w.isLt
  simp only [← BitVec.toNat_inj, BitVec.extractLsb'_toNat, Nat.shiftRight_eq_div_pow] at h0 h8 h16 h24
  omega

/-- Settles O35: equal frames are equally long, so their addresses and payloads stand at the same places. -/
theorem frameIsInjective : Obligations.FrameIsInjective := by
  intro a a' p p' _ _ h
  have hlen : p.length = p'.length := by simpa using congrArg List.length h
  rw [frameBytes_eq_covered, frameBytes_eq_covered, List.cons.injEq] at h
  have hcovered : frameCovered a p = frameCovered a' p' := List.append_inj_left h.2 (by simp [hlen])
  obtain ⟨hheader, hpayload⟩ := List.append_inj' hcovered hlen
  exact ⟨le32_injective (List.append_inj_left hheader rfl), hpayload⟩

/-! ### The byte at every position (41_frame_codec R121, R128) -/

theorem extractLsb'_low_ofNat (n : Nat) : (BitVec.ofNat 16 n).extractLsb' 0 8 = BitVec.ofNat 8 n := by
  apply BitVec.eq_of_toNat_eq
  simp only [BitVec.extractLsb'_toNat, BitVec.toNat_ofNat, Nat.shiftRight_eq_div_pow]
  omega

theorem extractLsb'_high_ofNat (n : Nat) : (BitVec.ofNat 16 n).extractLsb' 8 8 = BitVec.ofNat 8 (n / 256) := by
  apply BitVec.eq_of_toNat_eq
  simp only [BitVec.extractLsb'_toNat, BitVec.toNat_ofNat, Nat.shiftRight_eq_div_pow]
  omega

theorem positionByte_header (a : Word) (p : List Byte) {k : Nat} (hk : k < 7) :
    positionByte a p k = (frameHeader a p.length)[k]? := by
  have hlo := extractLsb'_low_ofNat p.length
  have hhi := extractLsb'_high_ofNat p.length
  interval_cases k <;> simp [positionByte, frameHeader, le32, le16, Config.wireStart, hlo, hhi]

theorem positionByte_payload (a : Word) (p : List Byte) {j : Nat} (hj : j < p.length) :
    positionByte a p (7 + j) = p[j]? := by
  simp only [positionByte]
  iterate 4 rw [if_neg (by omega)]
  rw [if_pos (by omega), Nat.add_sub_cancel_left]

theorem positionByte_trailer (a : Word) (p : List Byte) (j : Nat) :
    positionByte a p (7 + (p.length + j)) = (le16 (frameChecksum a p))[j]? := by
  simp only [positionByte]
  iterate 5 rw [if_neg (by omega)]
  match j with
  | 0 => rw [if_pos (by omega)]; rfl
  | 1 => rw [if_neg (by omega), if_pos (by omega)]; rfl
  | j + 2 => rw [if_neg (by omega), if_neg (by omega)]; rfl

/-- Settles O36: a position is in the header, in the payload, or `j` bytes past the payload. -/
theorem framePositionMap : Obligations.FramePositionMap := by
  intro a p _ _
  refine ⟨frameBytes_length a p, fun k => ?_⟩
  rw [frameBytes_eq_header]
  obtain hheader | hrest := Nat.lt_or_ge k 7
  · rw [positionByte_header a p hheader, List.getElem?_append_left hheader]
  · obtain ⟨j, rfl⟩ := Nat.exists_eq_add_of_le hrest
    rw [List.getElem?_append_right (Nat.le_add_right 7 j), frameHeader_length, Nat.add_sub_cancel_left]
    obtain hpayload | hend := Nat.lt_or_ge j p.length
    · rw [positionByte_payload a p hpayload, List.getElem?_append_left hpayload]
    · obtain ⟨j, rfl⟩ := Nat.exists_eq_add_of_le hend
      rw [positionByte_trailer, List.getElem?_append_right (Nat.le_add_right _ j), Nat.add_sub_cancel_left]

/-! ### The frame on the link (41_frame_codec R127, R131; 42_exchange R144) -/

/-- Under the invariant every counted entry reads as the byte its cell holds. -/
theorem pbufRead_of_inv {s : State} (h : Inv s) {i : Nat} (hi : i < s.pcnt.toNat) :
    s.pbufRead i = (s.pbuf.map Prod.snd)[i]? := by
  obtain ⟨hcap, hkeys, -⟩ := h
  have hlen : s.pbuf.length = s.pcnt.toNat := by simpa using congrArg List.length hkeys
  have hconsecutive : s.pbuf.map Prod.fst = List.range' 0 s.pbuf.length := by rw [hkeys, hlen, List.range_eq_range']
  have hcell := memory_read_range' s.pbuf 0 hconsecutive i (hlen ▸ hi)
  rw [State.pbufRead, if_pos ⟨hi, Nat.lt_of_lt_of_le hi hcap⟩, ← hcell, Nat.zero_add]

/-- With `PCNT` the payload's length, the transmit part sends the payload's frame and leaves its checksum in `CRC`. -/
theorem transmitFrame_frameBytes {s : State} {p : List Byte} (hlen : p.length = s.pcnt.toNat) :
    s.transmitFrame p =
      { s with crc := frameChecksum s.addr p, events := s.events ++ (frameBytes s.addr p).map .tx } := by
  have hfield : s.pcnt.setWidth 16 = BitVec.ofNat 16 p.length := by rw [hlen, BitVec.ofNat_toNat]
  rw [transmitFrame_eq, hfield]
  rfl

theorem exec_frmTx_empty {s : State} (hempty : s.pcnt = 0#9) : exec .frmTx s = .next (s.refuse .len) := if_pos hempty

theorem exec_frmTx_loaded {s : State} (h : Inv s) (hloaded : s.pcnt ≠ 0#9) :
    exec .frmTx s = .next { s with
      crc := frameChecksum s.addr (s.pbuf.map Prod.snd), res := .sent
      events := s.events ++ (frameBytes s.addr (s.pbuf.map Prod.snd)).map .tx } := by
  simp only [exec, execFrmTx, if_neg hloaded, payload_of_inv h, transmitFrame_frameBytes (payload_length_of_inv h), State.setRes]

theorem exec_xchFrm_loaded {s : State} (h : Inv s) (hloaded : s.pcnt ≠ 0#9) {a : Option Byte}
    (ha : a = s.answerAfter ((frameBytes s.addr (s.pbuf.map Prod.snd)).map .tx ++ [.flush])) :
    exec .xchFrm s = .next { s with
      exp := Config.wireAck, rxv := a.isSome, rxb := a.getD 0x00#8, res := judge Config.wireAck a
      crc := frameChecksum s.addr (s.pbuf.map Prod.snd), answers := s.answers.tail
      events := s.events ++ (frameBytes s.addr (s.pbuf.map Prod.snd)).map .tx ++ [.flush, .rx a] } := by
  have hlen : (s.pbuf.map Prod.snd).length = ({ s with exp := Config.wireAck } : State).clearHeld.pcnt.toNat :=
    payload_length_of_inv h
  simp only [exec, execXchFrm, if_neg hloaded, payload_of_inv h, transmitFrame_frameBytes hlen, finishExchange_eq]
  subst ha
  simp [State.answerAfter, State.clearHeld]

/-- Settles O16: the payload is what the cells hold. -/
theorem frmTxSendsTheFrame : Obligations.FrmTxSendsTheFrame := by
  intro data s
  refine ⟨decode_packTxn true 0x6#4 data, exec_frmTx_empty, fun hinv hloaded => ?_⟩
  have hlen := payload_length_of_inv hinv
  exact ⟨s.pbuf.map Prod.snd, hlen, fun i hi => pbufRead_of_inv hinv (hlen ▸ hi), exec_frmTx_loaded hinv hloaded⟩

/-! ### Sending again -/

theorem transmitted_append (es fs : List LinkEvent) : transmitted (es ++ fs) = transmitted es ++ transmitted fs := by
  induction es with
  | nil => rfl
  | cons e es ih => cases e <;> simp [transmitted, ih]

@[simp] theorem transmitted_map_tx (bs : List Byte) : transmitted (bs.map .tx) = bs := by
  induction bs with
  | nil => rfl
  | cons b bs ih => exact congrArg (b :: ·) ih

/-- From `s` to `t` the frame of the loaded segment went out, and the segment stands in `t` as in `s`. -/
def FrameSent (s t : State) : Prop :=
  t.addr = s.addr ∧ t.pcnt = s.pcnt ∧ t.pbuf = s.pbuf ∧
  ∃ es, t.events = s.events ++ es ∧ transmitted es = frameBytes s.addr (s.pbuf.map Prod.snd)

/-- With a segment loaded, either frame operation completes and sends its frame. -/
theorem exec_sends_frame {i : Instr} {s : State} (hi : i = .frmTx ∨ i = .xchFrm) (hinv : Inv s) (hloaded : s.pcnt ≠ 0#9) :
    ∃ t, exec i s = .next t ∧ FrameSent s t := by
  obtain rfl | rfl := hi
  · exact ⟨_, exec_frmTx_loaded hinv hloaded, rfl, rfl, rfl, _, rfl, transmitted_map_tx _⟩
  · refine ⟨_, exec_xchFrm_loaded hinv hloaded rfl, rfl, rfl, rfl, _, List.append_assoc .., ?_⟩
    simp [transmitted_append, transmitted]

theorem exec_keeps_inv {i : Instr} {s t : State} (hs : Inv s) (h : exec i s = .next t) : Inv t :=
  (inv_iff t).mpr ((inv_iff s).mp hs |>.imp (exec_keeps_payloadInv · h) (exec_keeps_heldInv · h))

/-- Settles O37: the segment and the invariant are kept, so the second operation sends the frame of the same segment. -/
theorem retryNeedsNoReload : Obligations.RetryNeedsNoReload := by
  intro i j s t hi hj hinv hloaded h
  obtain ⟨_, hfirst, haddr, hpcnt, hpbuf, es, hes, hsent⟩ := exec_sends_frame hi hinv hloaded
  cases h.symm.trans hfirst
  obtain ⟨u, hsecond, -, -, -, es', hes', hagain⟩ := exec_sends_frame hj (exec_keeps_inv hinv h) (hpcnt ▸ hloaded)
  rw [haddr, hpbuf] at hagain
  refine ⟨haddr, hpcnt, hpbuf, es, es', u, hes, hsecond, hes', hagain.trans hsent.symm, ?_⟩
  rw [hsent, frameBytes_length, payload_length_of_inv hinv]

end Sys2Proof.Laws
end

section
/-! The exchanges and raw link operations (42_exchange R140 to R153): what each does to the state, the exchanges as compositions of
the raw operations, one read per receiving operation, and the agreement of `RES` with the held byte. -/

namespace Sys2Proof.Laws

open Sys2Proof.Machine Sys2Proof.Safety

/-! ### Judgement and answer -/

/-- The judgement against an expected byte, as 42_exchange R143 and R144 write it. -/
theorem judge_eq_ite (e : Byte) (a : Option Byte) :
    judge e a = if a = none then .timeout else if a = some e then .matched else .mismatch := by
  cases a <;> simp [judge]

theorem judgeRaw_eq_ite (a : Option Byte) : judgeRaw a = if a = none then .timeout else .received := by
  cases a <;> rfl

/-- Where `RX.ONE` reports a byte, an exchange compares the byte held for it. -/
theorem judge_of_received {a : Option Byte} (h : judgeRaw a = .received) (e : Byte) :
    judge e a = if a.getD 0x00#8 = e then .matched else .mismatch := by
  cases a with
  | none => cases h
  | some b => rfl

/-- Where `RX.ONE` reports no byte, an exchange reports the same. -/
theorem judge_of_not_received {a : Option Byte} (h : judgeRaw a ≠ .received) (e : Byte) : judge e a = judgeRaw a := by
  cases a with
  | none => rfl
  | some b => exact absurd rfl h

/-- The answer depends on the oracle and the history alone, so events already appended are as good as events still to come. -/
theorem answerAfter_of_appended (s : State) {t : State} (es fs : List LinkEvent) (hanswers : t.answers = s.answers)
    (hevents : t.events = s.events ++ es) : t.answerAfter fs = s.answerAfter (es ++ fs) := by
  simp only [State.answerAfter, hanswers, hevents, List.append_assoc]

/-! ### The operations -/

theorem exec_xchFrm_empty {s : State} (hempty : s.pcnt = 0#9) : exec .xchFrm s = .next (s.refuse .len) := if_pos hempty

theorem exec_txRaw (s : State) (c : Byte) : exec (.txRaw c) s = .next ((s.linkWrite c).setRes .sent) := rfl

theorem exec_txFlush (s : State) : exec .txFlush s = .next (s.linkFlush.setRes .sent) := rfl

theorem exec_xchCmd (s : State) (c : Byte) {a : Option Byte} (ha : a = s.answerAfter [.tx c, .flush]) :
    exec (.xchCmd c) s = .next { s with
      exp := c, rxv := a.isSome, rxb := a.getD 0x00#8, res := judge c a, answers := s.answers.tail
      events := s.events ++ [.tx c, .flush, .rx a] } := by
  subst ha
  have hanswer : ((({ s with exp := c } : State).clearHeld).linkWrite c).answerAfter [.flush] =
      s.answerAfter [.tx c, .flush] := answerAfter_of_appended s [.tx c] [.flush] rfl rfl
  simp only [exec, execXchCmd, finishExchange_eq, hanswer]
  simp [State.clearHeld, State.linkWrite]

/-- Settles O17: the payload is what the cells hold, and the judgement is spelled out. -/
theorem xchFrmExchangesFrame : Obligations.XchFrmExchangesFrame := by
  intro data s
  refine ⟨decode_packTxn true 0x7#4 data, exec_xchFrm_empty, fun hinv hloaded => ?_⟩
  have hlen := payload_length_of_inv hinv
  refine ⟨s.pbuf.map Prod.snd, hlen, fun i hi => pbufRead_of_inv hinv (hlen ▸ hi), _, rfl, ?_⟩
  rw [exec_xchFrm_loaded hinv hloaded rfl, judge_eq_ite]
  rfl

/-- Settles O18: selector 8 is `XCH.CMD` of the low byte, and the judgement is spelled out. -/
theorem xchCmdExchangesCommand : Obligations.XchCmdExchangesCommand := by
  intro data s
  refine ⟨data.extractLsb' 0 8, _, rfl, rfl, decode_packTxn true 0x8#4 data, ?_⟩
  rw [exec_xchCmd s _ rfl, judge_eq_ite]

/-- Settles O19: selector 9 is `TX.RAW` of the low byte of the data. -/
theorem txRawWritesByte : Obligations.TxRawWritesByte :=
  fun data _ => ⟨decode_packTxn true 0x9#4 data, rfl⟩

/-- Settles O20: selector 0xA is `TX.FLUSH`, which looks at nothing written before. -/
theorem txFlushFlushes : Obligations.TxFlushFlushes :=
  fun data _ => ⟨decode_packTxn true 0xA#4 data, rfl⟩

/-- Settles O21: selector 0xB is `RX.ONE`, and its outcome is spelled out. -/
theorem rxOneReceives : Obligations.RxOneReceives := by
  intro data s
  refine ⟨s.answerAfter [], rfl, decode_packTxn true 0xB#4 data, ?_⟩
  rw [exec_rxOne, judgeRaw_eq_ite]
  rfl

/-! ### The classes of a byte (42_exchange R141, R142) -/

/-- The target error codes as a range and one more byte. -/
theorem isTerr_iff (b : Byte) : isTerr b = true ↔ (0xE1 ≤ b.toNat ∧ b.toNat ≤ 0xEA) ∨ b.toNat = 0xEE := by
  simp only [isTerr, Config.targetErrors, List.map_cons, List.map_nil, List.contains_iff_mem, List.mem_cons, List.not_mem_nil,
    ← BitVec.toNat_inj, BitVec.toNat_ofNat, Nat.reducePow, Nat.reduceMod, or_false]
  omega

theorem eq_wireAck_iff (b : Byte) : b = Config.wireAck ↔ b.toNat = 0xAA := BitVec.toNat_inj.symm

/-- Settles O25: the three tests of `rclass` in their order, each as a test of the byte's number. -/
theorem byteClasses : Obligations.ByteClasses := by
  intro v b
  refine ⟨isTerr_iff b, ?_⟩
  simp only [rclass, eq_wireAck_iff, isTerr_iff, apply_ite rclassCode, apply_ite BitVec.toNat]
  rfl

/-! ### Exchanges as compositions (42_exchange R152) -/

/-- After the events `es`, `TX.FLUSH` and `RX.ONE` leave what the end of an exchange leaves, with no judgement of the byte. -/
theorem exec_rxOne_flushed {s t : State} {es : List LinkEvent} {a : Option Byte} (ha : a = s.answerAfter (es ++ [.flush]))
    (hanswers : t.answers = s.answers) (hevents : t.events = s.events ++ es) :
    exec .rxOne (t.linkFlush.setRes .sent) = .next { t with
      rxv := a.isSome, rxb := a.getD 0x00#8, res := judgeRaw a, answers := s.answers.tail
      events := s.events ++ es ++ [.flush, .rx a] } := by
  have hflushed : (t.linkFlush.setRes .sent).events = s.events ++ (es ++ [.flush]) := by simp [hevents]
  have hanswer : (t.linkFlush.setRes .sent).linkAnswer = s.answerAfter (es ++ [.flush] ++ []) :=
    answerAfter_of_appended s _ [] hanswers hflushed
  rw [List.append_nil, ← ha] at hanswer
  rw [exec_rxOne, hanswer, hflushed]
  simp [State.linkFlush, State.setRes, hanswers]

/-- Settles O38: both sides write the same bytes, whatever they are, so `RX.ONE` gets the answer the exchange gets. -/
theorem exchangesAreCompositions : Obligations.ExchangesAreCompositions := by
  constructor
  · intro s hinv hloaded
    have hframe := exec_frmTx_loaded hinv hloaded
    have hexchange := exec_xchFrm_loaded hinv hloaded rfl
    generalize (frameBytes s.addr (s.pbuf.map Prod.snd)).map LinkEvent.tx = es at hframe hexchange
    generalize frameChecksum s.addr (s.pbuf.map Prod.snd) = k at hframe hexchange
    generalize ha : s.answerAfter (es ++ [.flush]) = a at hexchange
    exact ⟨_, _, _, _, hframe, exec_txFlush _, exec_rxOne_flushed ha.symm rfl rfl, hexchange,
      rfl, rfl, rfl, rfl, rfl, rfl, rfl, rfl, rfl,
      fun hreceived => judge_of_received hreceived _, fun hnone => judge_of_not_received hnone _⟩
  · intro s c
    generalize ha : s.answerAfter [.tx c, .flush] = a
    refine ⟨_, _, _, _, exec_txRaw s c, exec_txFlush _, exec_rxOne_flushed (es := [.tx c]) ha.symm rfl rfl,
      exec_xchCmd s c ha.symm, ?_, rfl⟩
    exact (List.append_assoc s.events [.tx c] [.flush, .rx a]).symm

/-! ### Receiving operations (42_exchange R150, R153) -/

theorem isReceiving_of_read {i : Instr} (hread : i.isWrite = false) : isReceiving i = false := by
  cases i <;> simp [Instr.isWrite, isReceiving] at hread ⊢

/-- A receiving operation that is not refused holds its answer and judges it, an exchange against the byte it expects. -/
theorem exec_receives {i : Instr} {s t : State} (h : exec i s = .next t) (hrecv : isReceiving i = true)
    (hok : refusal i s = none) :
    ∃ a, t.rxb = a.getD 0x00#8 ∧ t.rxv = a.isSome ∧ (t.res = judge t.exp a ∨ t.res = judgeRaw a) := by
  cases exec_effect h
  case xchFrm k bs a hloaded => exact ⟨a, rfl, rfl, .inl rfl⟩
  case xchCmd c a => exact ⟨a, rfl, rfl, .inl rfl⟩
  case rxOne a => exact ⟨a, rfl, rfl, .inr rfl⟩
  case xchFrmEmpty hempty => simp [refusal, hempty] at hok
  case read w hread => simp [isReceiving_of_read hread] at hrecv
  all_goals cases hrecv

/-- Settles O27: the invariant of the held byte holds of what was just received, and with no byte either judgement is TIMEOUT. -/
theorem outcomeAgreesWithHeldByte : Obligations.OutcomeAgreesWithHeldByte := by
  intro i s t hrecv hok h
  obtain ⟨a, hrxb, hrxv, hres⟩ := exec_receives h hrecv hok
  obtain ⟨-, hmatched, hmismatch, htimeout, hreceived⟩ := heldInv_of_received hrxb hrxv hres
  refine ⟨⟨htimeout, fun hnone => ?_⟩, fun hm => (hmatched hm).2, hmismatch, hreceived⟩
  obtain rfl : a = none := by simpa [hrxv] using hnone
  exact hres.elim id id

@[simp] theorem reads_append (es fs : List LinkEvent) : reads (es ++ fs) = reads es + reads fs := by
  induction es with
  | nil => simp [reads]
  | cons e es ih => cases e <;> simp +arith [reads, ih]

@[simp] theorem reads_map_tx (bs : List Byte) : reads (bs.map .tx) = 0 := by
  induction bs with
  | nil => rfl
  | cons b bs ih => exact ih

/-- With unflushed bytes before them, link writes leave unflushed bytes behind. -/
theorem readsFlushed_map_tx_append (bs : List Byte) (es : List LinkEvent) :
    readsFlushed true (bs.map .tx ++ es) = readsFlushed true es := by
  induction bs with
  | nil => rfl
  | cons b bs ih => exact ih

/-- What `i` appends to the history from `s` to `t` holds one read if `i` is a receiving operation that is not refused and none
otherwise, the oracle loses as many answers, and unless `i` is `RX.ONE` the reads find everything flushed. -/
def ReadsOnceFlushed (i : Instr) (s t : State) : Prop :=
  ∃ es, t.events = s.events ++ es ∧ reads es = (if isReceiving i = true ∧ refusal i s = none then 1 else 0) ∧
    t.answers = s.answers.drop (reads es) ∧ (i ≠ .rxOne → readsFlushed true es = true)

/-- An instruction that receives nothing: events without a read, and the oracle as it was. -/
theorem readsOnceFlushed_of_no_read {i : Instr} {s t : State} {es : List LinkEvent} (hevents : t.events = s.events ++ es)
    (hanswers : t.answers = s.answers) (hnone : reads es = 0) (hflushed : readsFlushed true es = true)
    (hi : ¬(isReceiving i = true ∧ refusal i s = none)) : ReadsOnceFlushed i s t :=
  ⟨es, hevents, hnone.trans (if_neg hi).symm, by rw [hnone, hanswers, List.drop_zero], fun _ => hflushed⟩

/-- An exchange: some bytes, a flush and the one read. -/
theorem readsOnceFlushed_of_exchange {i : Instr} {s t : State} {bs : List Byte} {a : Option Byte}
    (hevents : t.events = s.events ++ (bs.map .tx ++ [.flush, .rx a])) (hanswers : t.answers = s.answers.tail)
    (hi : isReceiving i = true ∧ refusal i s = none) : ReadsOnceFlushed i s t := by
  have hone : reads (bs.map .tx ++ [.flush, .rx a]) = 1 := by simp [reads]
  refine ⟨_, hevents, hone.trans (if_pos hi).symm, ?_, fun _ => ?_⟩
  · rw [hone, hanswers, List.drop_one]
  · rw [readsFlushed_map_tx_append]
    rfl

/-- Settles O49: the link operations one by one; every other effect, a refusal among them, leaves the link alone. -/
theorem oneReadPerReceivingOperation : Obligations.OneReadPerReceivingOperation := by
  intro i s t h
  change ReadsOnceFlushed i s t
  cases exec_effect h
  case xchFrm k bs a hloaded => exact readsOnceFlushed_of_exchange rfl rfl ⟨rfl, if_neg hloaded⟩
  case xchCmd c a => exact readsOnceFlushed_of_exchange rfl rfl ⟨rfl, rfl⟩
  case rxOne a => exact ⟨[.rx a], rfl, rfl, List.drop_one.symm, fun hne => absurd rfl hne⟩
  case frmTx k bs hloaded =>
    have hflushed : readsFlushed true (bs.map .tx) = true := by
      rw [← List.append_nil (bs.map LinkEvent.tx), readsFlushed_map_tx_append]
      rfl
    exact readsOnceFlushed_of_no_read rfl rfl (reads_map_tx bs) hflushed nofun
  case txRaw | txFlush => exact readsOnceFlushed_of_no_read rfl rfl rfl rfl nofun
  case read w hread =>
    exact readsOnceFlushed_of_no_read (List.append_nil _).symm rfl rfl rfl (by simp [isReceiving_of_read hread])
  case xchFrmEmpty hempty =>
    exact readsOnceFlushed_of_no_read (List.append_nil _).symm rfl rfl rfl (by simp [refusal, hempty])
  all_goals exact readsOnceFlushed_of_no_read (List.append_nil _).symm rfl rfl rfl nofun

end Sys2Proof.Laws
end

section
/-! The system operation, the register reads and the reserved selectors (43_system R170 to R177): `INIT`, the numbers of the words
that the reads return, and what a step does with a selector that the operation map does not assign. -/

namespace Sys2Proof.Laws

open Sys2Proof.Machine Sys2Proof.Safety

/-! ### Reserved selectors (43_system R176, R177) -/

theorem decodeWrite_of_reserved {sel : BitVec 4} (h : 0xC ≤ sel.toNat) (data : Word) :
    decodeWrite sel data = .reservedWrite sel := by
  obtain ⟨hassigned, -⟩ | ⟨-, hdec⟩ := decodeWrite_cases sel data
  · omega
  · exact hdec

theorem decodeRead_of_reserved {sel : BitVec 4} (h : readAssigned sel = false) : decodeRead sel = .reservedRead sel := by
  obtain ⟨hassigned, -⟩ | ⟨-, hdec⟩ := decodeRead_cases sel
  · cases h.symm.trans hassigned
  · exact hdec

/-- The selectors that 43_system R177 lists are the read selectors the operation map leaves out. -/
theorem readAssigned_eq_false_of_mem {sel : BitVec 4}
    (h : sel ∈ [0x2#4, 0x5#4, 0x6#4, 0x7#4, 0x9#4, 0xA#4, 0xB#4, 0xC#4, 0xD#4, 0xE#4, 0xF#4]) :
    readAssigned sel = false := by
  decide +revert

/-- A fetched reserved write is refused with `F_ILL`, on the state the fetch leaves. -/
theorem step_of_fetch_reservedWrite {s s' : State} {sel : BitVec 4} (h : fetch s = .txn (.reservedWrite sel) s') :
    step s = .next (s'.refuse .ill) := by
  rw [step, h]
  rfl

/-- A fetched reserved read returns zero, on the state the fetch leaves. -/
theorem step_of_fetch_reservedRead {s s' : State} {sel : BitVec 4} (h : fetch s = .txn (.reservedRead sel) s') :
    step s = .next (s'.returnWord 0#32) := by
  rw [step, h]
  rfl

/-- Settles O7: a selector past the twelve operations is fetched as a reserved write, whose step is the refusal. -/
theorem reservedWriteIsRefused : Obligations.ReservedWriteIsRefused := by
  intro s r rest sel data hsel hreq htxn
  have hdec : decode (packTxn true sel data) = .reservedWrite sel :=
    (decode_packTxn true sel data).trans (decodeWrite_of_reserved hsel data)
  have hfetch : fetch s = .txn (.reservedWrite sel) { s with requests := rest } := hdec ▸ fetch_txn hreq htxn
  rw [step_of_fetch_reservedWrite hfetch, refuse_ill]

/-- Settles O8: a selector beside the five registers is fetched as a reserved read, whose step returns zero. -/
theorem reservedReadReturnsZero : Obligations.ReservedReadReturnsZero := by
  intro s r rest sel data hsel hreq htxn
  have hdec : decode (packTxn false sel data) = .reservedRead sel :=
    (decode_packTxn false sel data).trans (decodeRead_of_reserved (readAssigned_eq_false_of_mem hsel))
  have hfetch : fetch s = .txn (.reservedRead sel) { s with requests := rest } := hdec ▸ fetch_txn hreq htxn
  exact step_of_fetch_reservedRead hfetch

/-! ### `INIT` (43_system R170) -/

theorem exec_init (s : State) : exec .init s = .next s.resetBlock := rfl

theorem resetBlock_sameLink (s : State) : SameLink s s.resetBlock := ⟨resetBlock_events s, resetBlock_answers s⟩

theorem resetBlock_sameHost (s : State) : SameHost s s.resetBlock :=
  ⟨resetBlock_requests s, resetBlock_returned s, resetBlock_agent s⟩

/-- Settles O10: selector 0 is `INIT`, which resets the block; with a count of zero nothing is readable. -/
theorem initGivesResetState : Obligations.InitGivesResetState :=
  fun data s => ⟨decode_packTxn true 0x0#4 data, s.resetBlock, exec_init s, rfl, rfl, rfl, rfl, rfl, rfl, rfl, rfl, rfl, rfl,
    pbufRead_of_pcnt_zero (resetBlock_pcnt s), resetBlock_sameLink s, resetBlock_sameHost s⟩

/-! ### Register words as numbers (43_system R171 to R175) -/

/-- Fields side by side, as a number: the upper one counts in units of the lower one's range. -/
theorem toNat_append_eq_add {m n : Nat} (x : BitVec m) (y : BitVec n) : (x ++ y).toNat = x.toNat * 2 ^ n + y.toNat := by
  rw [BitVec.toNat_append, ← Nat.shiftLeft_add_eq_or_of_lt y.isLt, Nat.shiftLeft_eq]

theorem statusWord_toNat (s : State) :
    (statusWord s).toNat =
      (resCode s.res).toNat + 8 * (rclassCode (rclass s.rxv s.rxb)).toNat + 32 * s.rxv.toNat +
        256 * s.fIll.toNat + 512 * s.fLen.toNat + 1024 * s.fOvf.toNat := by
  simp only [statusWord, toNat_append_eq_add, BitVec.toNat_ofBool, BitVec.toNat_ofNat]
  omega

theorem xbyteWord_toNat (s : State) : (xbyteWord s).toNat = s.exp.toNat + 256 * s.rxb.toNat := by
  simp only [xbyteWord, toNat_append_eq_add, BitVec.toNat_ofNat]
  omega

theorem crcWord_toNat (s : State) : (crcWord s).toNat = s.crc.toNat := BitVec.toNat_setWidth_of_le (by decide)

theorem pcntWord_toNat (s : State) : (pcntWord s).toNat = s.pcnt.toNat := BitVec.toNat_setWidth_of_le (by decide)

/-- Settles O22: the word read is `statusWord`, whose fields add up to the number. -/
theorem rdStatusReturnsStatus : Obligations.RdStatusReturnsStatus := by
  intro data s
  refine ⟨decode_packTxn false 0x0#4 data, statusWord s, exec_rdStatus_of_word rfl, ?_⟩
  rw [statusWord_toNat]
  cases s.res <;> rfl

/-- Settles O23: the words read are the registers zero-extended, or `EXP` and `RXB` side by side. -/
theorem registerReadsReturnTheRegister : Obligations.RegisterReadsReturnTheRegister :=
  fun data s => ⟨⟨decode_packTxn false 0x1#4 data, crcWord s, rfl, crcWord_toNat s⟩,
    ⟨decode_packTxn false 0x3#4 data, rfl⟩,
    ⟨decode_packTxn false 0x4#4 data, pcntWord s, rfl, pcntWord_toNat s⟩,
    ⟨decode_packTxn false 0x8#4 data, xbyteWord s, exec_rdXbyte_of_word rfl, xbyteWord_toNat s⟩⟩

end Sys2Proof.Laws
end

section
/-! SUPPORT. The host agent's moves one by one: a move that judges the two words read back, an iteration of an unbounded loop, the
end of a run, and the status codes it compares. -/

namespace Sys2Proof.Laws

open Sys2Proof.Machine Sys2Proof.Safety

/-! ### A move that judges -/

@[simp] theorem resCode_inj {r r' : Res} : resCode r = resCode r' ↔ r = r' := by
  constructor
  · cases r <;> cases r' <;> decide
  · exact congrArg resCode

theorem withWords_of_lastWords {s : State} {st x : Word} (h : s.lastWords = some (st, x)) (f : Word → Word → State) :
    s.withWords f = .next (f st x) := by
  rw [State.withWords, h]

/-- With no request outstanding, a step where the host judges by `f` leads to what `f` makes of the words read back. -/
theorem step_of_judging {s : State} {st x : Word} {f : Word → Word → State} (hreq : s.requests = [])
    (hwords : s.lastWords = some (st, x)) (hmove : agentStep s = s.withWords f) : step s = .next (f st x) := by
  rw [step_of_no_request hreq, hmove, withWords_of_lastWords hwords]

theorem agentStep_command {s : State} {cmd : Byte} {n : Nat} {k : AfterCommand} (h : s.agent.point = .command cmd n k) :
    agentStep s = s.withWords (s.judgeCommand cmd n k) := by rw [agentStep, h]

theorem agentStep_selection {s : State} (h : s.agent.point = .selection) : agentStep s = s.withWords s.judgeSelection := by
  rw [agentStep, h]

theorem agentStep_targetCode {s : State} {k : AfterAggregate} (h : s.agent.point = .targetCode k) :
    agentStep s = s.withWords (s.judgeTargetCode k) := by rw [agentStep, h]

theorem agentStep_targetOutcome {s : State} {code : Byte} {k : AfterAggregate} (h : s.agent.point = .targetOutcome code k) :
    agentStep s = s.withWords (s.judgeOutcome code k) := by rw [agentStep, h]

theorem agentStep_frame {s : State} {k : AfterTransfer} (h : s.agent.point = .frame k) :
    agentStep s = s.withWords (s.judgeFrame k) := by rw [agentStep, h]

/-! ### What a move issues, the end of a run, and a loop that goes on -/

/-- With nothing outstanding, what a move issues is all that is outstanding. -/
theorem issue_requests_of_none {s : State} (hreq : s.requests = []) (is : List Instr) (p : Point) :
    (s.issue is p).requests = issued is := by
  rw [issue_requests, hreq]
  rfl

theorem ended_conclude {s : State} (hreq : s.requests = []) (e : Ending) (p : Phase) (raw : List Byte) (ks : List ErrorKind) :
    Ended (s.conclude e p raw ks) e s.agent.phase raw :=
  ⟨hreq, rfl, _, rfl, rfl, rfl, rfl⟩

theorem ended_fatal {s : State} (hreq : s.requests = []) (kind : ErrorKind) (raw : List Byte) (cmd : Option Byte)
    (ks : List ErrorKind) : Ended (s.fatal kind raw cmd ks) (.fatal kind cmd) s.agent.phase raw :=
  ended_conclude hreq ..

/-- After the end of a run a step changes nothing (60_exceptions R245). -/
theorem step_of_ended {s : State} {e : Ending} {p : Phase} {raw : List Byte} (h : Ended s e p raw) : step s = .next s := by
  obtain ⟨hreq, hidle, -⟩ := h
  rw [step_of_no_request hreq, agentStep, hidle]

/-- A loop whose next iteration issues `is` goes on so, or the token ends the run. -/
theorem goesOn_iterate {s : State} (hreq : s.requests = []) (is : List Instr) (p : Point) :
    GoesOn s (s.iterate fun u => u.issue is p) is p := by
  unfold GoesOn
  obtain ⟨htoken, h⟩ | ⟨htoken, h⟩ := iterate_cases s fun u => u.issue is p
  · rw [if_pos htoken, h]
    exact ended_conclude hreq ..
  · rw [if_neg htoken, h]
    exact ⟨issue_requests_of_none hreq is p, rfl, rfl⟩

/-- Going on or being cancelled, such a loop keeps the segments, what was collected and the log. -/
theorem iterate_issue_keeps (s : State) (is : List Instr) (p : Point) :
    (s.iterate fun u => u.issue is p).agent.segments = s.agent.segments ∧
    (s.iterate fun u => u.issue is p).agent.collected = s.agent.collected ∧
    (s.iterate fun u => u.issue is p).agent.log = s.agent.log := by
  obtain ⟨-, h⟩ | ⟨-, h⟩ := iterate_cases s fun u => u.issue is p <;> rw [h] <;> exact ⟨rfl, rfl, rfl⟩

end Sys2Proof.Laws
end

section
/-! The Command Handshake (44_host_sequences R190, R191): one attempt as a run of its three transactions, the attempts that time out
before an answer, and the three ways in which the host judges that answer. -/

namespace Sys2Proof.Laws

open Sys2Proof.Machine Sys2Proof.Safety

/-! ### One attempt -/

/-- The last two words returned are `STATUS` and `XBYTE` after an exchange of `cmd` that was answered by `a`. -/
def ReadBack (cmd : Byte) (a : Option Byte) (s : State) : Prop :=
  ∃ st x, s.lastWords = some (st, x) ∧ statusRes st = resCode (judge cmd a) ∧ statusRxv st = a.isSome ∧
    xbyteRxb x = a.getD 0x00#8

theorem lastWords_of_returned {s : State} {ws : List Word} {st x : Word} (h : s.returned = ws ++ [st] ++ [x]) :
    s.lastWords = some (st, x) := by
  simp [State.lastWords, h]

/-- The two reads return `STATUS` and `XBYTE` and change nothing else. -/
theorem run_readBack {s : State} (hreq : s.requests = issued readBack) :
    Sys2Proof.core.run 2 s =
      .next { s with requests := [], returned := s.returned ++ [statusWord s] ++ [xbyteWord s] } := by
  rw [run_succ_of_step (step_of_encoded hreq)]
  exact run_succ_of_step (step_of_encoded (i := .rdXbyte) rfl)

/-- One attempt takes one answer, leaves its events, and leaves the host with the words to judge. -/
theorem run_attempt {s : State} {cmd : Byte} {a : Option Byte} {rest : List (Option Byte)}
    (hreq : s.requests = issued (.xchCmd cmd :: readBack)) (hanswers : s.answers = a :: rest) :
    ∃ t : State, Sys2Proof.core.run 3 s = .next t ∧ t.requests = [] ∧ t.agent = s.agent ∧ t.answers = rest ∧
      t.events = s.events ++ attempt cmd a ∧ ReadBack cmd a t := by
  have hexchange := exec_xchCmd { s with requests := issued readBack } cmd (a := a) (answerAfter_cons hanswers _).symm
  rw [run_succ_of_step ((step_of_encoded hreq).trans hexchange), run_readBack rfl]
  exact ⟨_, rfl, rfl, rfl, by rw [hanswers]; rfl, rfl, _, _, lastWords_of_returned rfl, statusWord_res _,
    statusWord_rxv _, xbyteWord_rxb _⟩

/-! ### Attempts that time out -/

/-- A handshake run on its own has issued its attempt at `cmd` that follows `n` timed-out ones. -/
structure Attempting (cmd : Byte) (n : Nat) (s : State) : Prop where
  requests : s.requests = issued (.xchCmd cmd :: readBack)
  point : s.agent.point = .command cmd n .finish
  phase : s.agent.phase = .idle

/-- Such an attempt was answered by `a`, and the host is to judge it. -/
structure Judging (cmd : Byte) (n : Nat) (a : Option Byte) (s : State) : Prop where
  requests : s.requests = []
  point : s.agent.point = .command cmd n .finish
  phase : s.agent.phase = .idle
  words : ReadBack cmd a s

theorem Attempting.run {s : State} {cmd : Byte} {n : Nat} {a : Option Byte} {rest : List (Option Byte)}
    (hs : Attempting cmd n s) (hanswers : s.answers = a :: rest) :
    ∃ t : State, Sys2Proof.core.run 3 s = .next t ∧ Judging cmd n a t ∧ t.answers = rest ∧
      t.events = s.events ++ attempt cmd a := by
  obtain ⟨t, hrun, hreq, hagent, hrest, hevents, hwords⟩ := run_attempt hs.requests hanswers
  exact ⟨t, hrun, ⟨hreq, hagent ▸ hs.point, hagent ▸ hs.phase, hwords⟩, hrest, hevents⟩

/-- The host judges the attempt by the words read back. -/
theorem Judging.step_eq {s : State} {cmd : Byte} {n : Nat} {a : Option Byte} (hs : Judging cmd n a s) :
    ∃ st x, step s = .next (s.judgeCommand cmd n .finish st x) ∧ statusRes st = resCode (judge cmd a) ∧
      rawBytes st x = a.toList := by
  obtain ⟨st, x, hlast, hres, hrxv, hrxb⟩ := hs.words
  refine ⟨st, x, step_of_judging hs.requests hlast (agentStep_command hs.point), hres, ?_⟩
  rw [rawBytes, hrxv, hrxb]
  cases a <;> rfl

/-- After a timeout that is not the fifth the host sends the command again. -/
theorem Judging.again {s : State} {cmd : Byte} {n : Nat} (hs : Judging cmd n none s) (hn : n < 4) :
    ∃ t : State, step s = .next t ∧ Attempting cmd (n + 1) t ∧ t.answers = s.answers ∧ t.events = s.events := by
  obtain ⟨st, x, hstep, hres, -⟩ := hs.step_eq
  have hjudge : s.judgeCommand cmd n .finish st x = (s.note (.timeout cmd)).issueCommand cmd (n + 1) .finish := by
    have hlimit : n + 1 ≠ Config.maxAttempts := by unfold Config.maxAttempts; omega
    simp [State.judgeCommand, hres, judge, hlimit]
  rw [hjudge] at hstep
  exact ⟨_, hstep, ⟨issue_requests_of_none (s := s.note (.timeout cmd)) hs.requests .., rfl, hs.phase⟩, rfl, rfl⟩

/-- A run through `k` attempts that time out, none of them the fifth. -/
theorem Attempting.run_timeouts {cmd : Byte} {rest : List (Option Byte)} (k n : Nat) (s : State) (hs : Attempting cmd n s)
    (hk : n + k ≤ 4) (hanswers : s.answers = List.replicate k none ++ rest) :
    ∃ t : State, Sys2Proof.core.run (4 * k) s = .next t ∧ Attempting cmd (n + k) t ∧ t.answers = rest ∧
      t.events = s.events ++ attempts cmd (List.replicate k none) := by
  induction k generalizing n s with
  | zero => exact ⟨s, rfl, hs, hanswers, (List.append_nil _).symm⟩
  | succ k ih =>
    obtain ⟨u, hrun, hjudging, hleft, hevents⟩ := hs.run hanswers
    obtain ⟨v, hstep, hagain, hsame, hkept⟩ := hjudging.again (by omega)
    obtain ⟨t, hruns, ht, hrest, hadded⟩ := ih (n + 1) v hagain (by omega) (hsame.trans hleft)
    refine ⟨t, ?_, by rwa [show n + (k + 1) = n + 1 + k by omega], hrest, ?_⟩
    · rw [show 4 * (k + 1) = 3 + (4 * k + 1) by omega, run_add _ _ _ _ _ hrun, run_succ_of_step hstep, hruns]
    · rw [hadded, hkept, hevents, List.append_assoc]
      rfl

theorem attempts_append (cmd : Byte) (as bs : List (Option Byte)) :
    attempts cmd (as ++ bs) = attempts cmd as ++ attempts cmd bs := by
  induction as with
  | nil => rfl
  | cons a as ih => rw [List.cons_append, attempts, attempts, ih, List.append_assoc]

/-! ### A whole handshake -/

/-- The run begins: the first attempt stands behind `INIT`, and after that step it is the next. -/
theorem run_begin_command {s : State} {cmd : Byte} (hreq : s.requests = []) (hpoint : s.agent.point = .start (.command cmd)) :
    ∃ t : State, Sys2Proof.core.run 2 s = .next t ∧ Attempting cmd 0 t ∧ t.answers = s.answers ∧ t.events = s.events := by
  have hmove : step s = .next (s.beginJob (.command cmd)) := by rw [step_of_no_request hreq, agentStep, hpoint]
  have hissued : (s.beginJob (.command cmd)).requests = .word (encode .init) :: issued (.xchCmd cmd :: readBack) := by
    show s.requests ++ _ ++ _ = _
    rw [hreq]
    rfl
  rw [run_succ_of_step hmove, run_succ_of_step ((step_of_encoded hissued).trans (exec_init _))]
  exact ⟨_, rfl, ⟨rfl, rfl, rfl⟩, rfl, rfl⟩

/-- A handshake whose first `k` attempts time out, up to the host's judgement of the next answer. -/
theorem run_handshake {s : State} {cmd : Byte} {k : Nat} {a : Option Byte} {rest : List (Option Byte)} (hk : k ≤ 4)
    (hreq : s.requests = []) (hpoint : s.agent.point = .start (.command cmd))
    (hanswers : s.answers = List.replicate k none ++ a :: rest) :
    ∃ t : State, Sys2Proof.core.run (4 * k + 5) s = .next t ∧ Judging cmd k a t ∧ t.answers = rest ∧
      t.events = s.events ++ attempts cmd (List.replicate k none ++ [a]) := by
  obtain ⟨u, hbegin, hfirst, hsame, hkept⟩ := run_begin_command hreq hpoint
  obtain ⟨v, htimeouts, hlast, hleft, hfailed⟩ := hfirst.run_timeouts k 0 u (by omega) (hsame.trans hanswers)
  rw [Nat.zero_add] at hlast
  obtain ⟨t, hrun, hjudging, hrest, hevents⟩ := hlast.run hleft
  refine ⟨t, ?_, hjudging, hrest, ?_⟩
  · rw [show 4 * k + 5 = 2 + (4 * k + 3) by omega, run_add _ _ _ _ _ hbegin, run_add _ _ _ _ _ htimeouts, hrun]
  · rw [hevents, hfailed, hkept, attempts_append, List.append_assoc]
    simp [attempts]

/-- `Verdict cmd n a e raw`: with `n` attempts timed out, the answer `a` to the next one ends the handshake as `e`, and the raw
bytes `raw` are reported; a timeout before the fifth is no verdict (44_host_sequences R191). -/
inductive Verdict (cmd : Byte) : Nat → Option Byte → Ending → List Byte → Prop
  | echoed (n : Nat) : Verdict cmd n (some cmd) .success []
  | wrong (n : Nat) (b : Byte) (hb : b ≠ cmd) : Verdict cmd n (some b) (.fatal .protocolDesync (some cmd)) [b]
  | exhausted : Verdict cmd 4 none (.fatal .transportTimeout (some cmd)) []

/-- A verdict ends the run. -/
theorem Judging.ends {s : State} {cmd : Byte} {n : Nat} {a : Option Byte} {e : Ending} {raw : List Byte}
    (hs : Judging cmd n a s) (hv : Verdict cmd n a e raw) :
    ∃ t : State, step s = .next t ∧ Ended t e .idle raw ∧ t.answers = s.answers ∧ t.events = s.events := by
  obtain ⟨st, x, hstep, hres, hraw⟩ := hs.step_eq
  rw [← hs.phase]
  refine ⟨_, hstep, ?_⟩
  cases hv with
  | echoed =>
    have hjudge : s.judgeCommand cmd n .finish st x = s.conclude .success s.agent.phase [] := by
      simp [State.judgeCommand, hres, judge, State.afterCommand]
    rw [hjudge]
    exact ⟨ended_conclude hs.requests .., rfl, rfl⟩
  | wrong _ b hb =>
    have hjudge : s.judgeCommand cmd n .finish st x =
        (s.noteTargetError st x).fatal .protocolDesync [b] (some cmd) [answerKind st] := by
      simp [State.judgeCommand, hres, judge, hb, hraw]
    rw [hjudge]
    exact ⟨ended_fatal (s := s.noteTargetError st x) hs.requests .., rfl, rfl⟩
  | exhausted =>
    have hjudge : s.judgeCommand cmd 4 .finish st x = (s.note (.timeout cmd)).fatal .transportTimeout [] (some cmd) := by
      simp [State.judgeCommand, hres, judge, Config.maxAttempts]
    rw [hjudge]
    exact ⟨ended_fatal (s := s.note (.timeout cmd)) hs.requests .., rfl, rfl⟩

/-- A handshake whose first `k` attempts time out ends as the next answer is judged, and then stays as it is. -/
theorem run_handshake_ends {s : State} {cmd : Byte} {k : Nat} {a : Option Byte} {rest : List (Option Byte)} {e : Ending}
    {raw : List Byte} (hk : k ≤ 4) (hv : Verdict cmd k a e raw) (hreq : s.requests = [])
    (hpoint : s.agent.point = .start (.command cmd)) (hanswers : s.answers = List.replicate k none ++ a :: rest) :
    ∃ t : State, Sys2Proof.core.run (4 * k + 6) s = .next t ∧ Ended t e .idle raw ∧ t.answers = rest ∧
      t.events = s.events ++ attempts cmd (List.replicate k none ++ [a]) ∧ step t = .next t := by
  obtain ⟨u, hrun, hjudging, hrest, hevents⟩ := run_handshake hk hreq hpoint hanswers
  obtain ⟨t, hstep, hended, hsame, hkept⟩ := hjudging.ends hv
  refine ⟨t, ?_, hended, hsame.trans hrest, hkept.trans hevents, step_of_ended hended⟩
  rw [run_add _ (4 * k + 5) 1 _ _ hrun]
  exact run_succ_of_step hstep

/-- Settles O53: the answer after the timeouts echoes the command. -/
theorem handshakeSucceedsWithinFive : Obligations.HandshakeSucceedsWithinFive := by
  intro s cmd k rest hk hreq hpoint hanswers
  obtain ⟨t, hrun, hended, hrest, hevents, -⟩ := run_handshake_ends hk (.echoed k) hreq hpoint hanswers
  exact ⟨t, hrun, hended, hrest, hevents⟩

/-- Settles O54: five timeouts are four and the one that exhausts the attempts; a wrong byte ends the run on any attempt. -/
theorem handshakeFailsFatally : Obligations.HandshakeFailsFatally := by
  constructor
  · intro s cmd rest hreq hpoint hanswers
    exact run_handshake_ends (le_refl 4) .exhausted hreq hpoint hanswers
  · intro s cmd b k rest hk hb hreq hpoint hanswers
    exact run_handshake_ends hk (.wrong k b hb) hreq hpoint hanswers

end Sys2Proof.Laws
end

section
/-! What a move of the host agent can send: why it issues a Command Handshake attempt, and what becomes of the segments still to send
(44_host_sequences R190 to R204). -/

namespace Sys2Proof.Laws

open Sys2Proof.Machine Sys2Proof.Safety

theorem encode_injective : Function.Injective encode := fun i j h => by
  have hop : Decoded.op i = .op j := by rw [← decode_encode i, ← decode_encode j, h]
  injection hop

/-- An instruction is among the requests of a list exactly when it is in the list. -/
theorem word_mem_issued {i : Instr} {is : List Instr} : .word (encode i) ∈ issued is ↔ i ∈ is :=
  List.mem_map_of_injective fun _ _ h => encode_injective (Request.word.inj h)

/-! ### The reasons for an attempt -/

/-- `Commands s cmd n`: a move from `s` may issue an attempt at `cmd` that follows `n` timed-out ones; one constructor per reason. -/
inductive Commands (s : State) : Byte → Nat → Prop
  /-- The host was told to send the command on its own. -/
  | told {cmd : Byte} (hpoint : s.agent.point = .start (.command cmd)) : Commands s cmd 0
  /-- A phase before the transfer, or the connectivity check, begins with the command. -/
  | phase {cmd : Byte} (hcmd : cmd ∈ [Config.cmdCheckTarget, Config.cmdResetTarget, Config.cmdSelectTarget, Config.cmdBaudChange,
      Config.cmdReceiveImage]) : Commands s cmd 0
  /-- The final acknowledgement of a session's transfer was read (R193, R204). -/
  | acknowledged {st x : Word} (hpoint : s.agent.point = .finalAck .flash) (hwords : s.lastWords = some (st, x))
      (hres : statusRes st = resCode .received) (hack : xbyteRxb x = s.agent.finalAck) : Commands s Config.cmdFlashImage 0
  /-- The attempt before brought neither a match nor a mismatch, and was not the fifth (R191). -/
  | again {cmd : Byte} {n : Nat} {k : AfterCommand} {st x : Word} (hpoint : s.agent.point = .command cmd n k)
      (hwords : s.lastWords = some (st, x)) (hmatched : statusRes st ≠ resCode .matched)
      (hmismatch : statusRes st ≠ resCode .mismatch) (hlimit : n + 1 ≠ 5) : Commands s cmd (n + 1)

/-! ### What a move can send -/

/-- Between `s` and `t`, in a move that begins in `o`, the host issued only attempts that `o` gives a reason for, waits for no other,
and kept the segments. -/
structure SendsOnly (o s t : State) : Prop where
  requests : ∀ cmd, .word (encode (.xchCmd cmd)) ∈ t.requests →
    .word (encode (.xchCmd cmd)) ∈ s.requests ∨ ∃ n, Commands o cmd n
  point : ∀ cmd n k, t.agent.point = .command cmd n k → Commands o cmd n
  segments : t.agent.segments = s.agent.segments

variable {o s t u : State}

/-- What came before the sending, a log entry or a new phase, does not matter. -/
theorem SendsOnly.after (h : SendsOnly o u t) (hreq : u.requests = s.requests := by rfl)
    (hseg : u.agent.segments = s.agent.segments := by rfl) : SendsOnly o s t :=
  ⟨hreq ▸ h.requests, h.point, h.segments.trans hseg⟩

theorem SendsOnly.trans (hsu : SendsOnly o s u) (hut : SendsOnly o u t) : SendsOnly o s t :=
  ⟨fun cmd h => (hut.requests cmd h).elim (hsu.requests cmd) .inr, hut.point, hut.segments.trans hsu.segments⟩

theorem sendsOnly_issue (s : State) (is : List Instr) (p : Point) (his : ∀ cmd, Instr.xchCmd cmd ∉ is := by simp [readBack])
    (hp : ∀ cmd n k, p ≠ .command cmd n k := by nofun) : SendsOnly o s (s.issue is p) where
  requests cmd h := (List.mem_append.mp h).imp_right fun h => absurd (word_mem_issued.mp h) (his cmd)
  point cmd n k h := absurd h (hp cmd n k)
  segments := rfl

theorem sendsOnly_issueCommand (s : State) {cmd : Byte} {n : Nat} (k : AfterCommand) (hcmd : Commands o cmd n) :
    SendsOnly o s (s.issueCommand cmd n k) where
  requests c h := (List.mem_append.mp h).imp_right fun h => by
    have hc : c = cmd := by simpa [readBack] using word_mem_issued.mp h
    exact ⟨n, hc ▸ hcmd⟩
  point c m j h := by
    obtain ⟨rfl, rfl, rfl⟩ : cmd = c ∧ n = m ∧ k = j := by simpa [State.issueCommand] using h
    exact hcmd
  segments := rfl

theorem sendsOnly_conclude (s : State) (e : Ending) (p : Phase) (raw : List Byte) (ks : List ErrorKind) :
    SendsOnly o s (s.conclude e p raw ks) := ⟨fun _ => .inl, nofun, rfl⟩

theorem sendsOnly_fatal (s : State) (kind : ErrorKind) (raw : List Byte) (cmd : Option Byte) (ks : List ErrorKind) :
    SendsOnly o s (s.fatal kind raw cmd ks) := sendsOnly_conclude ..

theorem sendsOnly_iterate (s : State) {again : State → State} (h : ∀ u, SendsOnly o u (again u)) :
    SendsOnly o s (s.iterate again) := by
  obtain ⟨-, e⟩ | ⟨-, e⟩ := iterate_cases s again <;> rw [e]
  · exact sendsOnly_conclude ..
  · exact (h _).after

theorem sendsOnly_nextCode (s : State) (k : AfterAggregate) : SendsOnly o s (s.nextCode k) :=
  sendsOnly_iterate s fun u => sendsOnly_issue u _ _

theorem sendsOnly_retrySegment (s : State) (k : AfterTransfer) : SendsOnly o s (s.retrySegment k) :=
  sendsOnly_iterate s fun u => sendsOnly_issue u _ _

theorem sendsOnly_beginAggregate (s : State) (k : AfterAggregate) : SendsOnly o s (s.beginAggregate k) :=
  (sendsOnly_issue _ _ _).after

theorem sendsOnly_nextSegment (s : State) (k : AfterTransfer) : SendsOnly o s (s.nextSegment k) := by
  obtain ⟨-, e⟩ | ⟨_, _, -, -, e⟩ | ⟨_, _, -, -, e⟩ := nextSegment_cases s k <;> rw [e]
  · exact sendsOnly_issue ..
  · exact sendsOnly_fatal ..
  · exact sendsOnly_issue s _ _ (by simp [loadSegment, readBack])

theorem sendsOnly_beginBaudChange (s : State) : SendsOnly o s s.beginBaudChange := by
  unfold State.beginBaudChange
  dsimp only
  split
  · exact (sendsOnly_fatal ..).after
  · exact (sendsOnly_issueCommand _ _ (.phase (by decide))).after

theorem sendsOnly_afterCommand (s : State) (k : AfterCommand) : SendsOnly o s (s.afterCommand k) := by
  cases k with
  | finish => exact sendsOnly_conclude ..
  | connectivity => exact sendsOnly_beginAggregate ..
  | select => exact (sendsOnly_issueCommand _ _ (.phase (by decide))).after
  | selector =>
    obtain ⟨-, e⟩ | ⟨-, e⟩ := sendSelector_cases s <;> rw [State.afterCommand, e]
    · exact sendsOnly_fatal ..
    · exact sendsOnly_issue ..
  | baudCode c => exact (sendsOnly_issue s [.txRaw c, .txFlush] .idle).trans (sendsOnly_beginAggregate ..)
  | transfer => exact (sendsOnly_nextSegment _ _).after
  | flashResult => exact (sendsOnly_issue _ _ _).after

theorem sendsOnly_beginRun (s : State) (selector : Byte) (baud : Nat) (p : Point)
    (hp : ∀ cmd n k, p ≠ .command cmd n k := by nofun) : SendsOnly o s (s.beginRun selector baud p) :=
  (sendsOnly_issue _ _ _ (hp := hp)).after

theorem sendsOnly_beginJob (s : State) {j : Job} (h : s.agent.point = .start j) : SendsOnly s s (s.beginJob j) := by
  cases j with
  | command cmd => exact (sendsOnly_beginRun s _ _ _).trans (sendsOnly_issueCommand _ _ (.told h))
  | connectivity selector => exact (sendsOnly_beginRun s _ _ _).trans (sendsOnly_issueCommand _ _ (.phase (by decide)))
  | transfer => exact sendsOnly_beginRun ..
  | session selector baud =>
    exact (sendsOnly_beginRun s selector baud .idle).trans (sendsOnly_issue _ _ _).after

theorem sendsOnly_judgeCommand (s : State) {cmd : Byte} {n : Nat} {k : AfterCommand} {st x : Word}
    (hpoint : s.agent.point = .command cmd n k) (hwords : s.lastWords = some (st, x)) :
    SendsOnly s s (s.judgeCommand cmd n k st x) := by
  unfold State.judgeCommand
  split
  · exact sendsOnly_afterCommand ..
  · split
    · exact (sendsOnly_fatal ..).after
    · split
      · exact (sendsOnly_fatal ..).after
      · exact (sendsOnly_issueCommand _ _ (.again hpoint hwords ‹_› ‹_› ‹_›)).after

theorem sendsOnly_judgeSelection (s : State) (st x : Word) : SendsOnly o s (s.judgeSelection st x) := by
  unfold State.judgeSelection
  split
  · exact sendsOnly_beginBaudChange s
  · split
    · exact (sendsOnly_fatal ..).after
    · exact sendsOnly_fatal ..

theorem sendsOnly_aggregateDone (s : State) (k : AfterAggregate) (st x : Word) : SendsOnly o s (s.aggregateDone k st x) := by
  unfold State.aggregateDone
  split
  · cases k with
    | finish => exact sendsOnly_conclude ..
    | receive => exact (sendsOnly_issueCommand _ _ (.phase (by decide))).after
  · exact sendsOnly_fatal ..

theorem sendsOnly_judgeTargetCode (s : State) (k : AfterAggregate) (st x : Word) :
    SendsOnly o s (s.judgeTargetCode k st x) := by
  unfold State.judgeTargetCode
  split
  · exact sendsOnly_nextCode ..
  · split
    · exact sendsOnly_aggregateDone ..
    · exact sendsOnly_issue ..

theorem sendsOnly_abortAggregate (s : State) (k : AfterAggregate) (st x : Word) (raw : List Byte) :
    SendsOnly o s (s.abortAggregate k st x raw) := (sendsOnly_fatal ..).after

theorem sendsOnly_judgeOutcome (s : State) (code : Byte) (k : AfterAggregate) (st x : Word) :
    SendsOnly o s (s.judgeOutcome code k st x) := by
  unfold State.judgeOutcome
  split
  · exact sendsOnly_abortAggregate ..
  · split
    · exact (sendsOnly_nextCode ..).after
    · exact (sendsOnly_nextCode ..).after
    · exact (sendsOnly_nextCode ..).after
    · exact sendsOnly_abortAggregate ..

theorem sendsOnly_judgeLoaded (s : State) (k : AfterTransfer) (st x : Word) : SendsOnly o s (s.judgeLoaded k st x) := by
  unfold State.judgeLoaded
  split
  · exact sendsOnly_fatal ..
  · exact sendsOnly_issue ..

theorem sendsOnly_judgeFinalAck (s : State) {k : AfterTransfer} {st x : Word} (hpoint : s.agent.point = .finalAck k)
    (hwords : s.lastWords = some (st, x)) : SendsOnly s s (s.judgeFinalAck k st x) := by
  unfold State.judgeFinalAck
  split
  case isTrue hack =>
    cases k with
    | finish => exact sendsOnly_conclude ..
    | flash => exact (sendsOnly_issueCommand _ _ (.acknowledged hpoint hwords hack.1 hack.2)).after
  case isFalse => cases k <;> exact (sendsOnly_conclude ..).after

theorem sendsOnly_judgeFlash (s : State) (st x : Word) : SendsOnly o s (s.judgeFlash st x) := by
  unfold State.judgeFlash
  split
  · split
    · exact sendsOnly_conclude ..
    · split
      · exact (sendsOnly_conclude ..).after
      · exact (sendsOnly_conclude ..).after
  · exact (sendsOnly_iterate (s.note .waiting) fun u => sendsOnly_issue u _ _).after

/-! ### Dropping a segment -/

/-- `s` without the first of the segments still to send. -/
def dropSegment (s : State) : State := { s with agent := { s.agent with segments := s.agent.segments.tail } }

/-- The host judges a frame whose `STATUS` says MATCH. -/
def FrameMatched (s : State) : Prop :=
  ∃ k st x, s.agent.point = .frame k ∧ s.lastWords = some (st, x) ∧ statusRes st = resCode .matched

theorem sendsOnly_judgeFrame (s : State) {k : AfterTransfer} {st x : Word} (hpoint : s.agent.point = .frame k)
    (hwords : s.lastWords = some (st, x)) :
    SendsOnly o s (s.judgeFrame k st x) ∨ FrameMatched s ∧ SendsOnly o (dropSegment s) (s.judgeFrame k st x) := by
  unfold State.judgeFrame
  split
  · exact .inr ⟨⟨k, st, x, hpoint, hwords, ‹_›⟩, sendsOnly_nextSegment (dropSegment s) k⟩
  · left
    split
    · exact sendsOnly_retrySegment ..
    · split
      · exact sendsOnly_fatal ..
      · split
        · exact (sendsOnly_retrySegment (s.noteError x) k).after
        · exact (sendsOnly_retrySegment (s.note _) k).after

/-- A judging move leads to what `f` makes of the words read back. -/
theorem withWords_eq_next {f : Word → Word → State} (h : s.withWords f = .next t) :
    ∃ st x, s.lastWords = some (st, x) ∧ t = f st x := by
  unfold State.withWords at h
  split at h
  · cases h
  · cases h
    exact ⟨_, _, ‹_›, rfl⟩

/-- What a move of the host agent can send, and that it drops a segment only after a match. -/
theorem agentStep_sends (h : agentStep s = .next t) :
    SendsOnly s s t ∨ FrameMatched s ∧ SendsOnly s (dropSegment s) t := by
  have judged {f : Word → Word → State} (hf : ∀ st x, SendsOnly s s (f st x)) (h : s.withWords f = .next t) :
      SendsOnly s s t := by
    obtain ⟨st, x, -, rfl⟩ := withWords_eq_next h
    exact hf st x
  unfold agentStep at h
  split at h
  case h_1 hidle => cases h; exact .inl ⟨fun _ => .inl, fun _ _ _ hp => (by rw [hidle] at hp; cases hp), rfl⟩
  case h_2 hpoint => cases h; exact .inl (sendsOnly_beginJob s hpoint)
  case h_3 => cases h; exact .inl (sendsOnly_issueCommand _ _ (.phase (by decide))).after
  case h_4 hpoint =>
    obtain ⟨st, x, hwords, rfl⟩ := withWords_eq_next h
    exact .inl (sendsOnly_judgeCommand s hpoint hwords)
  case h_5 => exact .inl (judged (sendsOnly_judgeSelection s) h)
  case h_6 => exact .inl (judged (sendsOnly_judgeTargetCode s _) h)
  case h_7 => exact .inl (judged (sendsOnly_judgeOutcome s _ _) h)
  case h_8 => cases h; exact .inl (sendsOnly_nextSegment ..)
  case h_9 => exact .inl (judged (sendsOnly_judgeLoaded s _) h)
  case h_10 hpoint =>
    obtain ⟨st, x, hwords, rfl⟩ := withWords_eq_next h
    exact sendsOnly_judgeFrame s hpoint hwords
  case h_11 hpoint =>
    obtain ⟨st, x, hwords, rfl⟩ := withWords_eq_next h
    exact .inl (sendsOnly_judgeFinalAck s hpoint hwords)
  case h_12 => exact .inl (judged (sendsOnly_judgeFlash s) h)

end Sys2Proof.Laws
end

section
/-! The safety of the host sequences: the bound on attempts, the segments and the flash command (44_host_sequences R190 to R204). -/

namespace Sys2Proof.Laws

open Sys2Proof.Machine Sys2Proof.Safety

/-- A transaction leaves the host agent as it is. -/
theorem step_keeps_agent {s t : State} (hstep : step s = .next t) :
    t.agent = s.agent ∨ s.requests = [] ∧ agentStep s = .next t := by
  obtain hmove | ⟨_, rest, _, -, -, htxn⟩ := step_cases hstep
  · exact .inr hmove
  · left
    obtain ⟨i, -, hi⟩ | ⟨-, hw⟩ | ⟨-, hr⟩ := htxn
    · obtain ⟨-, hagent, -⟩ := exec_frame_host hi
      exact hagent
    · cases hw; rfl
    · cases hr; rfl

/-- Settles O55: a transaction leaves the agent, and a move waits for an attempt that is the first, or follows one that was not the
fifth. -/
theorem attemptsStayBelowFive : Obligations.AttemptsStayBelowFive := by
  intro s t hfew hstep cmd n k hpoint
  obtain hagent | ⟨-, hmove⟩ := step_keeps_agent hstep
  · exact hfew cmd n k (hagent ▸ hpoint)
  · have hreason : Commands s cmd n := (agentStep_sends hmove).elim (·.point cmd n k hpoint) (·.2.point cmd n k hpoint)
    cases hreason with
    | told | phase | acknowledged => omega
    | again hlast _ _ _ hlimit =>
      have := hfew _ _ _ hlast
      omega

/-- Settles O56: a transaction leaves the agent, and a move keeps the segments but for the one it drops on a match. -/
theorem segmentsAdvanceOnlyOnMatch : Obligations.SegmentsAdvanceOnlyOnMatch := by
  intro s t hstep
  obtain hagent | ⟨hreq, hmove⟩ := step_keeps_agent hstep
  · exact .inl (hagent ▸ rfl)
  · obtain hsends | ⟨hmatched, hsends⟩ := agentStep_sends hmove
    · exact .inl hsends.segments
    · exact .inr ⟨hsends.segments, hreq, hmatched⟩

/-- Settles O58: of the reasons for an attempt, three can be one for the flash command. -/
theorem flashCommandOnlyAfterFinalAck : Obligations.FlashCommandOnlyAfterFinalAck := by
  intro s t hreq hstep hflash
  have hmove : agentStep s = .next t := step_of_no_request hreq ▸ hstep
  have hreason : .word (encode (.xchCmd Config.cmdFlashImage)) ∈ s.requests ∨ ∃ n, Commands s Config.cmdFlashImage n :=
    (agentStep_sends hmove).elim (·.requests _ hflash) (·.2.requests _ hflash)
  obtain hold | ⟨n, hreason⟩ := hreason
  · rw [hreq] at hold
    cases hold
  · cases hreason with
    | told hpoint => exact .inl hpoint
    | phase hcmd => exact absurd hcmd (by decide)
    | acknowledged hpoint hwords hres hack => exact .inr (.inr ⟨_, _, hpoint, hwords, hres, hack⟩)
    | again hpoint hwords hmatched hmismatch => exact .inr (.inl ⟨_, _, _, _, hpoint, hwords, hmatched, hmismatch⟩)

end Sys2Proof.Laws
end

section
/-! The Target Address Book (44_host_sequences R194 to R196): the lists of a selector, their product, and the nibbles of a target
code. -/

namespace Sys2Proof.Laws

open Sys2Proof.Machine

theorem mem_boardList {sel : Byte} {j : Nat} : j + 1 ∈ boardList sel ↔ j < 3 ∧ sel.getLsbD (4 + j) = true := by
  have hj : j ∈ [0, 1, 2] ↔ j < 3 := by simp; omega
  simp only [boardList, List.mem_map, List.mem_filter, Nat.add_right_cancel_iff, exists_eq_right, hj]

theorem mem_targetList {sel : Byte} {k : Nat} : k + 1 ∈ targetList sel ↔ k < 4 ∧ sel.getLsbD k = true := by
  have hk : k ∈ [0, 1, 2, 3] ↔ k < 4 := by simp; omega
  simp only [targetList, List.mem_map, List.mem_filter, Nat.add_right_cancel_iff, exists_eq_right, hk]

theorem zero_notMem_boardList (sel : Byte) : 0 ∉ boardList sel := by simp [boardList]

theorem zero_notMem_targetList (sel : Byte) : 0 ∉ targetList sel := by simp [targetList]

theorem boardList_bounds {sel : Byte} {b : Nat} (h : b ∈ boardList sel) : 1 ≤ b ∧ b ≤ 3 := by
  cases b with
  | zero => exact absurd h (zero_notMem_boardList sel)
  | succ j => exact ⟨by omega, (mem_boardList.mp h).1⟩

theorem targetList_bounds {sel : Byte} {t : Nat} (h : t ∈ targetList sel) : 1 ≤ t ∧ t ≤ 4 := by
  cases t with
  | zero => exact absurd h (zero_notMem_targetList sel)
  | succ k => exact ⟨by omega, (mem_targetList.mp h).1⟩

theorem boardList_length (sel : Byte) : (boardList sel).length = (List.range 3).countP fun j => sel.getLsbD (4 + j) := by
  rw [boardList, List.length_map, ← List.countP_eq_length_filter]
  rfl

theorem targetList_length (sel : Byte) : (targetList sel).length = (List.range 4).countP fun k => sel.getLsbD k := by
  rw [targetList, List.length_map, ← List.countP_eq_length_filter]
  rfl

/-- The bits of a list that are set, counted as `popcount` adds them up. -/
theorem countP_eq_sum_toNat (p : Nat → Bool) (l : List Nat) : l.countP p = (l.map fun k => (p k).toNat).sum := by
  induction l with
  | nil => rfl
  | cons k l ih => cases h : p k <;> simp [h, ih, Nat.add_comm]

theorem popcount_eq_countP (v : Byte) : popcount v = (List.range 8).countP fun k => v.getLsbD k :=
  (countP_eq_sum_toNat ..).symm

theorem popcount_low_nibble (sel : Byte) : popcount (sel &&& 0x0F#8) = (List.range 4).countP fun k => sel.getLsbD k := by
  simp [popcount_eq_countP, List.range_succ, List.countP_cons]

theorem popcount_board_bits (sel : Byte) :
    popcount ((sel >>> 4) &&& 0x07#8) = (List.range 3).countP fun j => sel.getLsbD (4 + j) := by
  simp [popcount_eq_countP, List.range_succ, List.countP_cons]

theorem expectedCount_eq_countP (sel : Byte) : expectedCount sel =
    ((List.range 4).countP fun k => sel.getLsbD k) * ((List.range 3).countP fun j => sel.getLsbD (4 + j)) := by
  rw [expectedCount, popcount_low_nibble, popcount_board_bits]

theorem expectedCount_eq_lengths (sel : Byte) : expectedCount sel = (targetList sel).length * (boardList sel).length := by
  rw [expectedCount_eq_countP, targetList_length, boardList_length]

theorem expectedCount_le (sel : Byte) : expectedCount sel ≤ 12 := by
  rw [expectedCount_eq_countP]
  have htargets : ((List.range 4).countP fun k => sel.getLsbD k) ≤ 4 := List.countP_le_length
  have hboards : ((List.range 3).countP fun j => sel.getLsbD (4 + j)) ≤ 3 := List.countP_le_length
  exact Nat.mul_le_mul htargets hboards

/-! ### Target codes -/

theorem boardOf_eq_succ_iff (h : BitVec 4) {j : Nat} (hj : j < 3) : boardOf h = j + 1 ↔ h.toNat = 2 ^ j := by
  revert h j
  decide

theorem targetOf_eq_succ_iff (l : BitVec 4) {k : Nat} (hk : k < 4) : targetOf l = k + 1 ↔ l.toNat = 2 ^ k := by
  revert l k
  decide

theorem boardOf_le (h : BitVec 4) : boardOf h ≤ 3 := by
  revert h
  decide

theorem targetOf_le (l : BitVec 4) : targetOf l ≤ 4 := by
  revert l
  decide

theorem high_nibble_toNat (code : Byte) : (code.extractLsb' 4 4).toNat = code.toNat / 16 := by
  rw [BitVec.extractLsb'_toNat, Nat.shiftRight_eq_div_pow]
  omega

theorem low_nibble_toNat (code : Byte) : (code.extractLsb' 0 4).toNat = code.toNat % 16 := BitVec.extractLsb'_toNat ..

/-- Settles O52: the lists hold the set bits, the count is the product of their lengths, and a code is decoded nibble by nibble. -/
theorem targetAddressBook : Obligations.TargetAddressBook := by
  refine ⟨fun sel => ⟨fun j hj => ?_, fun _ => boardList_bounds, fun k hk => ?_, fun _ => targetList_bounds,
    expectedCount_eq_lengths sel⟩, fun sel => ⟨expectedCount_le sel, expectedCount_eq_countP sel⟩,
    fun code => ⟨boardOf_le _, targetOf_le _, fun j hj => ?_, fun k hk => ?_⟩⟩
  · rw [mem_boardList, and_iff_right hj]
  · rw [mem_targetList, and_iff_right hk]
  · rw [codeBoard, boardOf_eq_succ_iff _ hj, high_nibble_toNat]
  · rw [codeTarget, targetOf_eq_succ_iff _ hk, low_nibble_toNat]

end Sys2Proof.Laws
end

section
/-! What the host does with an answer it has read back: the transfer's retry, the rejection of an unsupported baud, and the
aggregator's two reads (44_host_sequences R192, R198, R199, R203, R208, R209). -/

namespace Sys2Proof.Laws

open Sys2Proof.Machine Sys2Proof.Safety

/-! ### The transfer's retry (44_host_sequences R192) -/

/-- A timeout or a wrong byte is at most logged, and the same segment is sent again. -/
theorem judgeFrame_retries (s : State) (k : AfterTransfer) {st : Word} (x : Word)
    (hres : statusRes st = resCode .timeout ∨ statusRes st = resCode .mismatch) :
    s.judgeFrame k st x = s.retrySegment k ∨ ∃ e, s.judgeFrame k st x = (s.note e).retrySegment k := by
  obtain hres | hres := hres
  · exact .inl (by simp [State.judgeFrame, hres])
  · right
    by_cases hterr : statusRcls st = rclassCode .terr
    · exact ⟨.errorCode (xbyteRxb x) (descriptionOf (xbyteRxb x)),
        by simp [State.judgeFrame, State.noteError, hres, hterr]⟩
    · exact ⟨.unexpected (xbyteRxb x), by simp [State.judgeFrame, hres, hterr]⟩

/-- The segments stay, and the host sends the first of them again or finds the token set. -/
theorem retrySegment_goesOn {s : State} (hreq : s.requests = []) (k : AfterTransfer) :
    (s.retrySegment k).agent.segments = s.agent.segments ∧
    GoesOn s (s.retrySegment k) [.xchFrm, .rdStatus, .rdXbyte] (.frame k) := by
  obtain ⟨hsegments, -, -⟩ := iterate_issue_keeps s (.xchFrm :: readBack) (.frame k)
  exact ⟨hsegments, goesOn_iterate hreq _ _⟩

/-- Settles O57: the answer is at most logged, and then the same segment is sent again unless the token is set. -/
theorem transferRetriesSameSegment : Obligations.TransferRetriesSameSegment := by
  intro s k st x hreq hpoint hwords hres
  refine ⟨_, step_of_judging hreq hwords (agentStep_frame hpoint), ?_⟩
  obtain h | ⟨e, h⟩ := judgeFrame_retries s k x hres <;> rw [h]
  · exact retrySegment_goesOn hreq k
  · exact retrySegment_goesOn (s := s.note e) hreq k

/-! ### An unsupported baud (44_host_sequences R203, R209) -/

theorem baudCode_eq_none_iff (baud : Nat) :
    baudCode baud = none ↔ baud ∉ [9600, 19200, 38400, 57600, 115200, 230400, 460800, 921600] := by
  have hkeys : Config.baudCodes.map Prod.fst = [9600, 19200, 38400, 57600, 115200, 230400, 460800, 921600] := rfl
  rw [baudCode, Option.map_eq_none_iff, List.find?_eq_none, ← hkeys, List.mem_map, not_exists]
  simp only [beq_iff_eq, not_and]

theorem judgeSelection_ack {s : State} {st : Word} (hres : statusRes st = resCode .received)
    (hcls : statusRcls st = rclassCode .ack) (x : Word) : s.judgeSelection st x = s.beginBaudChange := if_pos ⟨hres, hcls⟩

theorem beginBaudChange_unsupported {s : State} (h : baudCode s.agent.baud = none) :
    s.beginBaudChange = (s.enterPhase .baudChange).fatal .validationError [] := by
  simp [State.beginBaudChange, h]

/-- Settles O59: the accepted selection begins the phase BaudChange, which the check ends at once. -/
theorem unsupportedBaudIsRejected : Obligations.UnsupportedBaudIsRejected := by
  intro s st x hreq hpoint hwords hres hcls hbaud
  refine ⟨_, step_of_judging hreq hwords (agentStep_selection hpoint), ?_⟩
  rw [judgeSelection_ack hres hcls, beginBaudChange_unsupported ((baudCode_eq_none_iff _).mpr hbaud)]
  exact ended_fatal (s := s.enterPhase .baudChange) hreq ..

/-! ### The aggregator awaits a target code (44_host_sequences R198, R199) -/

section TargetCode

variable {s : State} {k : AfterAggregate} {st x : Word}

theorem judgeTargetCode_timeout (hres : statusRes st = resCode .timeout) : s.judgeTargetCode k st x = s.nextCode k :=
  if_pos hres

theorem judgeTargetCode_code (hres : statusRes st = resCode .received) (hcode : xbyteRxb x ≠ 0xAC#8) :
    s.judgeTargetCode k st x = s.issueRead (.targetOutcome (xbyteRxb x) k) := by
  simp [State.judgeTargetCode, hres, Config.wireFin, hcode]

theorem judgeTargetCode_fin (hres : statusRes st = resCode .received) (hfin : xbyteRxb x = 0xAC#8) :
    s.judgeTargetCode k st x = s.aggregateDone k st x := by
  simp [State.judgeTargetCode, hres, Config.wireFin, hfin]

theorem aggregateDone_wrong_count (hcount : s.agent.collected.length ≠ expectedCount s.agent.selector) :
    s.aggregateDone k st x = s.fatal .validationError (rawBytes st x) := if_neg hcount

theorem aggregateDone_finish (hcount : s.agent.collected.length = expectedCount s.agent.selector) :
    s.aggregateDone .finish st x = s.conclude .success s.agent.phase [] := if_pos hcount

theorem aggregateDone_receive (hcount : s.agent.collected.length = expectedCount s.agent.selector) :
    s.aggregateDone .receive st x = (s.enterPhase .receiveRequested).issueCommand Config.cmdReceiveImage 0 .transfer :=
  if_pos hcount

end TargetCode

/-! ### The aggregator awaits an outcome byte (44_host_sequences R198) -/

section TargetOutcome

variable {s : State} {code : Byte} {k : AfterAggregate} {st x : Word}

theorem judgeOutcome_timeout (hres : statusRes st = resCode .timeout) :
    s.judgeOutcome code k st x = s.abortAggregate k st x [code] := if_pos hres

theorem judgeOutcome_acked (hres : statusRes st = resCode .received) (hbyte : xbyteRxb x = 0xAA#8) :
    s.judgeOutcome code k st x =
      (s.collect ⟨codeBoard code, codeTarget code, .acked, Config.responseElapsed s.events⟩).nextCode k := by
  have houtcome : outcomeOf 0xAA#8 = .acked := by decide
  simp [State.judgeOutcome, hres, hbyte, houtcome]

theorem judgeOutcome_notAcked (hres : statusRes st = resCode .received) (hbyte : xbyteRxb x = 0xEE#8) :
    s.judgeOutcome code k st x = (s.note (.response .notAcked (codeBoard code) (codeTarget code))).nextCode k := by
  have houtcome : outcomeOf 0xEE#8 = .notAcked := by decide
  simp [State.judgeOutcome, hres, hbyte, houtcome]

theorem judgeOutcome_notConnected (hres : statusRes st = resCode .received) (hbyte : xbyteRxb x = 0x00#8) :
    s.judgeOutcome code k st x = (s.note (.response .notConnected (codeBoard code) (codeTarget code))).nextCode k := by
  have houtcome : outcomeOf 0x00#8 = .notConnected := by decide
  simp [State.judgeOutcome, hres, hbyte, houtcome]

theorem judgeOutcome_other (hres : statusRes st = resCode .received) (hack : xbyteRxb x ≠ 0xAA#8)
    (hnack : xbyteRxb x ≠ 0xEE#8) (hzero : xbyteRxb x ≠ 0x00#8) :
    s.judgeOutcome code k st x = s.abortAggregate k st x [code, xbyteRxb x] := by
  have houtcome : outcomeOf (xbyteRxb x) = .versionMismatch (xbyteRxb x) :=
    (if_neg hack).trans ((if_neg hnack).trans (if_neg hzero))
  simp [State.judgeOutcome, hres, houtcome]

theorem abortKind_eq_ite (k : AfterAggregate) :
    k.abortKind = if k = .receive then .validationError else .protocolDesync := by cases k <;> rfl

theorem ended_abortAggregate (hreq : s.requests = []) (raw : List Byte) :
    Ended (s.abortAggregate k st x raw) (.fatal (if k = .receive then .validationError else .protocolDesync) none)
      s.agent.phase raw := by
  rw [← abortKind_eq_ite]
  exact ended_fatal (s := s.noteTargetError st x) hreq ..

theorem abortAggregate_log_of_received (hres : statusRes st = resCode .received) (raw : List Byte) :
    (s.abortAggregate k st x raw).agent.log = s.agent.log ++
      (if statusRcls st = rclassCode .terr then [.errorCode (xbyteRxb x) (descriptionOf (xbyteRxb x))] else []) := by
  have hkind : answerKind st = .targetError ↔ statusRcls st = rclassCode .terr := by simp [answerKind_eq_targetError, hres]
  simp only [State.abortAggregate, State.fatal, conclude_agent, noteTargetError_agent, hkind]

end TargetOutcome

/-- The host reads for the next target code or finds the token set, and what was collected and logged stays. -/
theorem nextCode_goesOn {s : State} (hreq : s.requests = []) (k : AfterAggregate) :
    GoesOn s (s.nextCode k) [.rxOne, .rdStatus, .rdXbyte] (.targetCode k) ∧
    (s.nextCode k).agent.collected = s.agent.collected ∧ (s.nextCode k).agent.log = s.agent.log := by
  obtain ⟨-, hcollected, hlog⟩ := iterate_issue_keeps s (.rxOne :: readBack) (.targetCode k)
  exact ⟨goesOn_iterate hreq _ _, hcollected, hlog⟩

/-- Settles O60: each clause is one case of the two judgements. -/
theorem aggregatorCollects : Obligations.AggregatorCollects := by
  intro s k code st x hreq hwords
  constructor
  · intro hpoint
    rw [step_of_judging hreq hwords (agentStep_targetCode hpoint)]
    refine ⟨fun hres => ?timeout, fun hres hcode => ?code, fun hres hfin hcount => ?wrongCount,
      fun hres hfin hcount => ?rightCount⟩
    case timeout =>
      obtain ⟨hgoes, hcollected, hlog⟩ := nextCode_goesOn hreq k
      exact ⟨_, congrArg _ (judgeTargetCode_timeout hres), hcollected, hlog, hgoes⟩
    case code =>
      exact ⟨_, congrArg _ (judgeTargetCode_code hres hcode), rfl, rfl, issue_requests_of_none hreq .., rfl⟩
    case wrongCount =>
      refine ⟨_, congrArg _ (judgeTargetCode_fin hres hfin), ?_⟩
      rw [aggregateDone_wrong_count hcount]
      exact ended_fatal hreq ..
    case rightCount =>
      refine ⟨_, congrArg _ (judgeTargetCode_fin hres hfin), ?_⟩
      cases k with
      | finish =>
        rw [aggregateDone_finish hcount]
        exact ⟨rfl, fun _ => ended_conclude hreq .., nofun⟩
      | receive =>
        rw [aggregateDone_receive hcount]
        exact ⟨rfl, nofun, fun _ => ⟨rfl, issue_requests_of_none (s := s.enterPhase .receiveRequested) hreq .., rfl⟩⟩
  · intro hpoint
    rw [step_of_judging hreq hwords (agentStep_targetOutcome hpoint)]
    refine ⟨fun hres => ?timeout, fun hres hbyte => ?acked, fun hres hbyte => ?notAcked, fun hres hbyte => ?notConnected,
      fun hres hack hnack hzero => ?other⟩
    case timeout =>
      exact ⟨_, congrArg _ (judgeOutcome_timeout hres), rfl, ended_abortAggregate hreq _⟩
    case acked =>
      obtain ⟨hgoes, hcollected, hlog⟩ := nextCode_goesOn (s := s.collect _) hreq k
      exact ⟨_, _, congrArg _ (judgeOutcome_acked hres hbyte), hlog, hcollected, hgoes⟩
    case notAcked =>
      obtain ⟨hgoes, hcollected, hlog⟩ := nextCode_goesOn (s := s.note _) hreq k
      exact ⟨_, congrArg _ (judgeOutcome_notAcked hres hbyte), hcollected, hlog, hgoes⟩
    case notConnected =>
      obtain ⟨hgoes, hcollected, hlog⟩ := nextCode_goesOn (s := s.note _) hreq k
      exact ⟨_, congrArg _ (judgeOutcome_notConnected hres hbyte), hcollected, hlog, hgoes⟩
    case other =>
      exact ⟨_, congrArg _ (judgeOutcome_other hres hack hnack hzero), rfl, abortAggregate_log_of_received hres _,
        ended_abortAggregate hreq _⟩

end Sys2Proof.Laws
end

section
/-! The block's one exception (60_exceptions R230, R231, R236): under the invariant every operation completes, and a refusal is
one of the three named conditions and writes its flag and `RES`. -/

namespace Sys2Proof.Laws

open Sys2Proof.Machine Sys2Proof.Safety

/-! ### Every operation completes -/

/-- Either frame operation is refused with an empty payload. -/
theorem exec_frame_empty {i : Instr} {s : State} (hi : i = .frmTx ∨ i = .xchFrm) (hempty : s.pcnt = 0#9) :
    exec i s = .next (s.refuse .len) := by
  obtain rfl | rfl := hi
  · exact exec_frmTx_empty hempty
  · exact exec_xchFrm_empty hempty

/-- Under the invariant no instruction faults: a push is refused or has room, a frame is refused or has its whole payload. -/
theorem exec_completes {s : State} (hinv : Inv s) (i : Instr) : ∃ t, exec i s = .next t := by
  cases i
  case frmPush v =>
    obtain ⟨hcap, -⟩ := hinv
    obtain hroom | hfull := Nat.lt_or_eq_of_le hcap
    · exact ⟨_, exec_frmPush_room hroom v⟩
    · exact ⟨_, exec_frmPush_full hfull v⟩
  case frmTx | xchFrm =>
    by_cases hempty : s.pcnt = 0#9
    · exact ⟨_, exec_frame_empty (by simp) hempty⟩
    · exact (exec_sends_frame (by simp) hinv hempty).imp fun _ => And.left
  all_goals exact ⟨_, rfl⟩

/-- Settles O43: the transaction taken is an instruction, or a reserved selector, which completes from any state. -/
theorem everyOperationCompletes : Obligations.EveryOperationCompletes := by
  refine ⟨fun i s hinv => exec_completes hinv i, fun s r rest w hinv hreq htxn => ?_⟩
  have hfetch : fetch s = .txn (decode w) { s with requests := rest } := fetch_txn hreq htxn
  have htaken : Inv { s with requests := rest } := hinv
  cases hdec : decode w with
  | op i => exact step_of_fetch_op (hdec ▸ hfetch) ▸ exec_completes htaken i
  | reservedWrite sel => exact ⟨_, step_of_fetch_reservedWrite (hdec ▸ hfetch)⟩
  | reservedRead sel => exact ⟨_, step_of_fetch_reservedRead (hdec ▸ hfetch)⟩

/-! ### What is refused, and what a refusal writes -/

/-- A refusal as an update of the state: the flag it names and `RES`. -/
theorem refuse_eq (s : State) (f : RefusalFlag) :
    s.refuse f = { s with
      res := .refused, fIll := s.fIll || f == .ill, fLen := s.fLen || f == .len, fOvf := s.fOvf || f == .ovf } := by
  cases f <;> simp [refuse_ill, refuse_len, refuse_ovf]

/-- An instruction whose refusal condition holds is refused with that flag. -/
theorem exec_of_refusal {i : Instr} {s : State} {f : RefusalFlag} (h : refusal i s = some f) :
    exec i s = .next (s.refuse f) := by
  cases i
  case frmPush v =>
    obtain ⟨hfull, ⟨⟩⟩ := Option.ite_none_right_eq_some.mp h
    exact exec_frmPush_full hfull v
  case frmTx | xchFrm =>
    obtain ⟨hempty, ⟨⟩⟩ := Option.ite_none_right_eq_some.mp h
    exact exec_frame_empty (by simp) ((pcnt_eq_zero s).mpr hempty)
  all_goals cases h

theorem judge_ne_refused (e : Byte) (a : Option Byte) : judge e a ≠ .refused := by
  cases a with
  | none => simp [judge]
  | some b => by_cases hb : b = e <;> simp [judge, hb]

theorem judgeRaw_ne_refused (a : Option Byte) : judgeRaw a ≠ .refused := by cases a <;> simp [judgeRaw]

/-- An instruction that is not refused, `INIT` apart, leaves the flags and sets `RES` to REFUSED only if it was. -/
theorem exec_of_not_refused {i : Instr} {s t : State} (h : exec i s = .next t) (hok : refusal i s = none) (hi : i ≠ .init) :
    t.fIll = s.fIll ∧ t.fLen = s.fLen ∧ t.fOvf = s.fOvf ∧ (t.res = .refused → s.res = .refused) := by
  cases exec_effect h
  case init => exact absurd rfl hi
  case pushFull v hfull => simp [refusal, hfull] at hok
  case frmTxEmpty hempty | xchFrmEmpty hempty => simp [refusal, hempty] at hok
  case xchFrm | xchCmd => exact ⟨rfl, rfl, rfl, fun hres => absurd hres (judge_ne_refused _ _)⟩
  case rxOne => exact ⟨rfl, rfl, rfl, fun hres => absurd hres (judgeRaw_ne_refused _)⟩
  case frmTx | txRaw | txFlush => exact ⟨rfl, rfl, rfl, nofun⟩
  all_goals exact ⟨rfl, rfl, rfl, id⟩

/-- Settles O47: a refused instruction is `State.refuse` with its flag, and the effect of any other raises none. -/
theorem refusalsAreExact : Obligations.RefusalsAreExact :=
  fun _ s => ⟨fun f hf => refuse_eq s f ▸ exec_of_refusal hf, fun _ hok hi h => exec_of_not_refused h hok hi⟩

end Sys2Proof.Laws
end
